-- ==== Sys2Proof/Word.lean ====
section
/-! DEFINITION. The word types of the PERC RTP extension codec block (spec/00_scope.md R13): value registers are
32 bits, the command word is 16 bits, and every buffer is a finite sequence of 8-bit bytes. -/

namespace Sys2Proof

/-- A byte of a buffer (R13). -/
abbrev Byte := BitVec 8

/-- The contents of a 32-bit register (R13, R25). -/
abbrev Word := BitVec 32

/-- A 16-bit command word (R13, R59). -/
abbrev CmdWord := BitVec 16

end Sys2Proof
end

