-- ==== Sys2Proof/Syntax.lean ====
section
/-! DEFINITION. The commands of the block: one constructor per row of spec/opcode_table.json. A command has no operand
in its word (spec/30_encoding.md R64), so no constructor has a field. -/

namespace Sys2Proof

/-- The 42 commands (R65). -/
inductive Instr where
  /-- PARSE.AST, word 0x0001 (R76) -/
  | parseAst
  /-- PARSE.AL, word 0x0002 (R80) -/
  | parseAl
  /-- PARSE.TOFF, word 0x0003 (R83) -/
  | parseToff
  /-- PARSE.TSN, word 0x0004 (R86) -/
  | parseTsn
  /-- PARSE.CVO, word 0x0005 (R90) -/
  | parseCvo
  /-- PARSE.CVORAW, word 0x0006 (R93) -/
  | parseCvoraw
  /-- PARSE.PDL, word 0x0007 (R98) -/
  | parsePdl
  /-- PARSE.VCT, word 0x0008 (R102) -/
  | parseVct
  /-- PARSE.VT, word 0x0009 (R106) -/
  | parseVt
  /-- PARSE.RSID, word 0x000A (R111) -/
  | parseRsid
  /-- PARSE.RRSID, word 0x000B (R114) -/
  | parseRrsid
  /-- PARSE.FM, word 0x000C (R121) -/
  | parseFm
  /-- WRITE.AST, word 0x0101 (R77) -/
  | writeAst
  /-- WRITE.AL, word 0x0102 (R81) -/
  | writeAl
  /-- WRITE.TOFF, word 0x0103 (R84) -/
  | writeToff
  /-- WRITE.TSN, word 0x0104 (R87) -/
  | writeTsn
  /-- WRITE.CVO, word 0x0105 (R91) -/
  | writeCvo
  /-- WRITE.CVORAW, word 0x0106 (R94) -/
  | writeCvoraw
  /-- WRITE.PDL, word 0x0107 (R99) -/
  | writePdl
  /-- WRITE.VCT, word 0x0108 (R103) -/
  | writeVct
  /-- WRITE.VT, word 0x0109 (R107) -/
  | writeVt
  /-- WRITE.RSID, word 0x010A (R112) -/
  | writeRsid
  /-- WRITE.RRSID, word 0x010B (R115) -/
  | writeRrsid
  /-- WRITE.FM, word 0x010C (R122) -/
  | writeFm
  /-- VSIZE.AST, word 0x0201 (R78) -/
  | vsizeAst
  /-- VSIZE.AL, word 0x0202 (R82) -/
  | vsizeAl
  /-- VSIZE.TOFF, word 0x0203 (R85) -/
  | vsizeToff
  /-- VSIZE.TSN, word 0x0204 (R88) -/
  | vsizeTsn
  /-- VSIZE.CVO, word 0x0205 (R92) -/
  | vsizeCvo
  /-- VSIZE.CVORAW, word 0x0206 (R95) -/
  | vsizeCvoraw
  /-- VSIZE.PDL, word 0x0207 (R100) -/
  | vsizePdl
  /-- VSIZE.VCT, word 0x0208 (R104) -/
  | vsizeVct
  /-- VSIZE.VT, word 0x0209 (R108) -/
  | vsizeVt
  /-- VSIZE.RSID, word 0x020A (R113) -/
  | vsizeRsid
  /-- VSIZE.RRSID, word 0x020B (R116) -/
  | vsizeRrsid
  /-- VSIZE.FM, word 0x020C (R123) -/
  | vsizeFm
  /-- VP9LID, word 0x030C (R125) -/
  | vp9lid
  /-- SETKEY.OUT, word 0x1000 (R131) -/
  | setkeyOut
  /-- SETKEY.IN, word 0x1001 (R132) -/
  | setkeyIn
  /-- ENCRYPT, word 0x1100 (R133) -/
  | encrypt
  /-- DECRYPT, word 0x1200 (R134) -/
  | decrypt
  /-- OVERHEAD, word 0x1300 (R135) -/
  | overhead
  deriving DecidableEq, Repr

end Sys2Proof
end

