-- ==== Sys2Proof/Decode.lean ====
section
/-! DEFINITION. The decoder of spec/30_encoding.md R67, total on every 16-bit word and rejecting by name, and the
encoder of R65's table. -/

namespace Sys2Proof

/-- Why a word is no command (R66). Every reason ends in the fault IllegalCommand. -/
inductive Reject where
  /-- CLASS 0x2 to 0xF (R60) -/
  | reservedClass
  /-- OP 0x4 to 0xF (R61, R63) -/
  | reservedOp
  /-- TYPE 0x00 or 0x0D to 0xFF of PARSE, WRITE, VSIZE (R62) -/
  | reservedType
  /-- VP9LID with a TYPE other than 0x0C (R61) -/
  | vp9lidType
  /-- an ARG the wrapper operation does not have (R63) -/
  | reservedArg
  deriving DecidableEq, Repr

/-- What the decoder answers. -/
inductive Decoded where
  | command (i : Instr)
  | rejected (r : Reject)
  deriving DecidableEq, Repr

/-- CLASS, bits 15:12 (R59). -/
def classField (w : CmdWord) : Nat := (w.extractLsb' 12 4).toNat

/-- OP, bits 11:8 (R59). -/
def opField (w : CmdWord) : Nat := (w.extractLsb' 8 4).toNat

/-- ARG, bits 7:0 (R59). -/
def argField (w : CmdWord) : Nat := (w.extractLsb' 0 8).toNat

/-- PARSE of the codec type code TYPE (R61, R62). -/
def decodeParse : Nat → Decoded
  | 0x01 => .command .parseAst
  | 0x02 => .command .parseAl
  | 0x03 => .command .parseToff
  | 0x04 => .command .parseTsn
  | 0x05 => .command .parseCvo
  | 0x06 => .command .parseCvoraw
  | 0x07 => .command .parsePdl
  | 0x08 => .command .parseVct
  | 0x09 => .command .parseVt
  | 0x0A => .command .parseRsid
  | 0x0B => .command .parseRrsid
  | 0x0C => .command .parseFm
  | _ => .rejected .reservedType

/-- WRITE of the codec type code TYPE (R61, R62). -/
def decodeWrite : Nat → Decoded
  | 0x01 => .command .writeAst
  | 0x02 => .command .writeAl
  | 0x03 => .command .writeToff
  | 0x04 => .command .writeTsn
  | 0x05 => .command .writeCvo
  | 0x06 => .command .writeCvoraw
  | 0x07 => .command .writePdl
  | 0x08 => .command .writeVct
  | 0x09 => .command .writeVt
  | 0x0A => .command .writeRsid
  | 0x0B => .command .writeRrsid
  | 0x0C => .command .writeFm
  | _ => .rejected .reservedType

/-- VSIZE of the codec type code TYPE (R61, R62). -/
def decodeVsize : Nat → Decoded
  | 0x01 => .command .vsizeAst
  | 0x02 => .command .vsizeAl
  | 0x03 => .command .vsizeToff
  | 0x04 => .command .vsizeTsn
  | 0x05 => .command .vsizeCvo
  | 0x06 => .command .vsizeCvoraw
  | 0x07 => .command .vsizePdl
  | 0x08 => .command .vsizeVct
  | 0x09 => .command .vsizeVt
  | 0x0A => .command .vsizeRsid
  | 0x0B => .command .vsizeRrsid
  | 0x0C => .command .vsizeFm
  | _ => .rejected .reservedType

/-- CLASS 0, the codec unit (R61, R67). -/
def decodeCodec (op arg : Nat) : Decoded :=
  match op with
  | 0 => decodeParse arg
  | 1 => decodeWrite arg
  | 2 => decodeVsize arg
  | 3 => if arg = 0x0C then .command .vp9lid else .rejected .vp9lidType
  | _ => .rejected .reservedOp

/-- CLASS 1, the wrapper (R63, R67). -/
def decodeWrapper (op arg : Nat) : Decoded :=
  match op with
  | 0 => if arg = 0 then .command .setkeyOut else if arg = 1 then .command .setkeyIn else .rejected .reservedArg
  | 1 => if arg = 0 then .command .encrypt else .rejected .reservedArg
  | 2 => if arg = 0 then .command .decrypt else .rejected .reservedArg
  | 3 => if arg = 0 then .command .overhead else .rejected .reservedArg
  | _ => .rejected .reservedOp

/-- The decoder (R67). -/
def decode (w : CmdWord) : Decoded :=
  match classField w with
  | 0 => decodeCodec (opField w) (argField w)
  | 1 => decodeWrapper (opField w) (argField w)
  | _ => .rejected .reservedClass

/-- The command of a decoder's answer, if it is one. -/
def Decoded.toOption : Decoded → Option Instr
  | .command i => some i
  | .rejected _ => none

/-- The bits of an instruction as the opcode table numbers them, every bit above nbits being 0. -/
def tableWord (nbits w : Nat) : CmdWord := BitVec.ofNat 16 (w % 2 ^ nbits)

/-- The instruction the decoder reads from the bits w of an opcode-table row. A command is one 16-bit word (R59), which
the host writes to CMD whole (R29), so no byte order enters; more bits than the word has are no instruction. -/
def decodeTableWord (nbits w : Nat) : Option Instr :=
  if w % 2 ^ nbits < 2 ^ 16 then (decode (tableWord nbits w)).toOption else none

/-- The word of each command (R65). -/
def encode : Instr → CmdWord
  | .parseAst => 0x0001#16
  | .parseAl => 0x0002#16
  | .parseToff => 0x0003#16
  | .parseTsn => 0x0004#16
  | .parseCvo => 0x0005#16
  | .parseCvoraw => 0x0006#16
  | .parsePdl => 0x0007#16
  | .parseVct => 0x0008#16
  | .parseVt => 0x0009#16
  | .parseRsid => 0x000A#16
  | .parseRrsid => 0x000B#16
  | .parseFm => 0x000C#16
  | .writeAst => 0x0101#16
  | .writeAl => 0x0102#16
  | .writeToff => 0x0103#16
  | .writeTsn => 0x0104#16
  | .writeCvo => 0x0105#16
  | .writeCvoraw => 0x0106#16
  | .writePdl => 0x0107#16
  | .writeVct => 0x0108#16
  | .writeVt => 0x0109#16
  | .writeRsid => 0x010A#16
  | .writeRrsid => 0x010B#16
  | .writeFm => 0x010C#16
  | .vsizeAst => 0x0201#16
  | .vsizeAl => 0x0202#16
  | .vsizeToff => 0x0203#16
  | .vsizeTsn => 0x0204#16
  | .vsizeCvo => 0x0205#16
  | .vsizeCvoraw => 0x0206#16
  | .vsizePdl => 0x0207#16
  | .vsizeVct => 0x0208#16
  | .vsizeVt => 0x0209#16
  | .vsizeRsid => 0x020A#16
  | .vsizeRrsid => 0x020B#16
  | .vsizeFm => 0x020C#16
  | .vp9lid => 0x030C#16
  | .setkeyOut => 0x1000#16
  | .setkeyIn => 0x1001#16
  | .encrypt => 0x1100#16
  | .decrypt => 0x1200#16
  | .overhead => 0x1300#16

end Sys2Proof
end

