-- ==== Sys2Proof/Config.lean ====
section
/-! DEFINITION. What is fixed for a run (spec/00_scope.md R12): the uninterpreted VP9 mapping, and the record of the
parameters that a model takes as arguments. -/

namespace Sys2Proof.Config

/-- VP9_LAYER_ID_MAP : (8 bits, 1 bit, 1 bit) → 8 bits (R125). The spec leaves it OPEN and no claim may rest on a
value of it, so it has no body here. Log entry 13. -/
opaque vp9LayerIdMap : BitVec 8 → BitVec 1 → BitVec 1 → BitVec 8

end Sys2Proof.Config

namespace Sys2Proof

/-- One row of the cipher-suite table SUITES (R129). -/
structure Suite where
  /-- the tag the host puts in v[0] -/
  tag : BitVec 16
  /-- required length in bytes of key‖salt in IB -/
  keySaltLen : Nat
  /-- length in bytes of the authentication tag, the value of TAGLEN -/
  tagLen : BitVec 8
  deriving DecidableEq, Repr

/-- The parameters a model takes as arguments (R12). They are fixed for a run: no command and no reset changes them
(R157). Log entry 2. -/
structure Params where
  /-- OHB_SIZE, bytes of the Original Header Block (R126) -/
  ohbSize : Nat
  /-- RSID_MAX, the largest StreamId length in bytes (R109); SB has 16 bytes (R13, R27), log entry 4 -/
  rsidMax : Fin 17
  /-- REPLAY_WINDOW, passed to the engine when a session is created (R130) -/
  replayWindow : Nat
  /-- ALLOW_REPEAT, the retransmission-tolerant replay policy (R130) -/
  allowRepeat : Bool
  /-- VERSION_BYTE (R127) -/
  versionByte : Byte
  /-- PDL_G, milliseconds per raw count (R97) -/
  pdlG : Nat
  /-- PDL_MAX_MS, the PlayoutDelayLimits ceiling (R97) -/
  pdlMaxMs : Nat
  /-- VCT_COUNT (R101) -/
  vctCount : Nat
  /-- NO_TEMPORAL_IDX, an 8-bit value (R118) -/
  noTemporalIdx : Byte
  /-- NO_SPATIAL_IDX, an 8-bit value (R118) -/
  noSpatialIdx : Byte
  /-- NO_TL0_PIC_IDX, an 8-bit value (R118) -/
  noTl0PicIdx : Byte
  /-- SUITES (R129) -/
  suites : List Suite
  /-- ROT_TO_CVO (R89) as its table of values: the entry for a rotation code -/
  rotToCvo : Vector Byte 4
  /-- CVO_TO_ROT (R89) as its table of values: the row for bits 7:4 of a byte and in it the entry for bits 3:0 -/
  cvoToRot : Vector (Vector (BitVec 2) 16) 16
  /-- NPORTS (R42) -/
  nports : Nat
  deriving DecidableEq, Repr

end Sys2Proof
end

