-- ==== Sys2Proof/Machine/Parameters.lean ====
section
/-! DEFINITION. The parameters at the values of the value column of spec/00_scope.md R12, and the lookups in them. -/

namespace Sys2Proof

/-- CVO_TO_ROT applied to a byte (R89). -/
def Params.rotationOf (P : Params) (b : Byte) : BitVec 2 :=
  (P.cvoToRot.get (b.extractLsb' 4 4).toFin).get (b.extractLsb' 0 4).toFin

/-- ROT_TO_CVO applied to a rotation code (R89). -/
def Params.cvoOf (P : Params) (r : BitVec 2) : Byte :=
  P.rotToCvo.get r.toFin

/-- The row of SUITES whose tag is the value of v[0]; no 16-bit tag equals a value above 0xFFFF (R129, R131). -/
def Params.suiteOf (P : Params) (v0 : Word) : Option Suite :=
  P.suites.find? fun row => row.tag.setWidth 32 == v0

/-- The four cipher suites with the values of R129's table. -/
def Suite.table : List Suite :=
  [⟨0x0001#16, 30, 10#8⟩, ⟨0x0002#16, 30, 4#8⟩, ⟨0x0007#16, 28, 16#8⟩, ⟨0x0008#16, 44, 16#8⟩]

/-- The parameters at the values of R12's value column, which the spec's examples and test vectors use, with the
default rotation conversion of R89: ROT_TO_CVO(r) = r and CVO_TO_ROT(b) = b[1:0]. Log entry 2. -/
def Params.spec : Params where
  ohbSize := 11
  rsidMax := 16
  replayWindow := 1024
  allowRepeat := true
  versionByte := 0x80#8
  pdlG := 10
  pdlMaxMs := 40950
  vctCount := 2
  noTemporalIdx := 0xFF#8
  noSpatialIdx := 0xFF#8
  noTl0PicIdx := 0xFF#8
  suites := Suite.table
  rotToCvo := #v[0#8, 1#8, 2#8, 3#8]
  cvoToRot := Vector.replicate 16
    #v[0#2, 1#2, 2#2, 3#2, 0#2, 1#2, 2#2, 3#2, 0#2, 1#2, 2#2, 3#2, 0#2, 1#2, 2#2, 3#2]
  nports := 1

end Sys2Proof
end

