-- ==== Sys2Proof/Machine/State.lean ====
section
/-! DEFINITION. The state of the block as plain data (spec/10_state.md), the engine's questions and answers
(spec/60_exceptions.md R149), the host's actions, the reasons a step can stop, and the state after reset
(spec/70_reset_and_hazards.md R156).

A register that may hold no value is an `Option`: "no value" is the reset value the spec itself states for it (R156) and
reading it has the effect the spec states, the fault UnwrittenRead (R16). Log entry 1. -/

namespace Sys2Proof.Machine

/-- SESS[d] (R33): the engine's opaque session, replay window included (R40). The block never reads inside it (R149);
two sessions are only ever the same or different. Log entry 7. -/
structure Session where
  token : Nat
  deriving DecidableEq, Repr

/-- A direction of the wrapper (R33): OUT = 0, IN = 1. -/
inductive Direction where
  | out
  | inn
  deriving DecidableEq, Repr

/-- The key-state register set of one direction (R33). -/
structure KeyState where
  /-- KS[d]: false = 0 = Uninitialized, true = 1 = Keyed -/
  ks : Bool
  /-- SUITE[d] -/
  suite : Option (BitVec 16)
  /-- TAGLEN[d] -/
  tagLen : Option (BitVec 8)
  /-- SESS[d] -/
  sess : Option Session
  deriving DecidableEq, Repr

/-- The packet view PKT (R38). -/
structure PacketView where
  /-- PKT.M, the marker bit -/
  m : Option (BitVec 1)
  /-- PKT.PT, the payload type -/
  pt : Option (BitVec 7)
  /-- PKT.SEQ, the sequence number -/
  seq : Option (BitVec 16)
  /-- PKT.TS, the timestamp -/
  ts : Option (BitVec 32)
  /-- PKT.SSRC -/
  ssrc : Option (BitVec 32)
  /-- PKT.PAY, the payload bytes -/
  pay : Option (List Byte)
  /-- PKT.CAP, the maximum payload capacity in bytes -/
  cap : Option (BitVec 32)
  deriving DecidableEq, Repr

/-- The per-port state (R42). -/
structure Port where
  /-- the value registers v[0] to v[7] (R25) -/
  v : Vector (Option Word) 8
  /-- the 16 bytes of the string register SB (R27); each holds a value or not. Log entry 17. -/
  sb : Vector (Option Byte) 16
  /-- SLEN (R27) -/
  slen : Option (BitVec 5)
  /-- CMD (R29), write only: the last word written that the block did not ignore. Log entry 11. -/
  cmd : CmdWord
  /-- STATUS (R30) -/
  status : Option (BitVec 8)
  /-- RES (R31) -/
  res : Option Word
  /-- IB (R36) -/
  ib : List Byte
  /-- OB (R37) -/
  ob : List Byte
  /-- OLEN (R37) -/
  olen : Option Word
  /-- PKT (R38) -/
  pkt : PacketView
  deriving DecidableEq, Repr

/-- A question the block asks the crypto engine (R149). -/
inductive EngineQuestion where
  /-- create(suite, direction, key‖salt, REPLAY_WINDOW, ALLOW_REPEAT) -/
  | create (suite : BitVec 16) (d : Direction) (keySalt : List Byte) (replayWindow : Nat) (allowRepeat : Bool)
  /-- protect(session, buffer) -/
  | protect (session : Session) (buffer : List Byte)
  /-- unprotect(session, buffer) -/
  | unprotect (session : Session) (buffer : List Byte)
  /-- destroy(session), asked only at reset, with no answer -/
  | destroy (session : Session)
  deriving DecidableEq, Repr

/-- The engine's answer to unprotect (R149). -/
inductive UnprotectAnswer where
  | done (session : Session) (buffer : List Byte)
  | authFail
  | replayFail
  deriving DecidableEq, Repr

/-- The engine's answer to whichever question the current command asks: the free inputs of the step (R149). A command
asks at most one question, and only the answer to that question is used. Log entry 5. -/
structure EngineDraw where
  /-- the answer to create; none is CreateFail -/
  create : Option Session
  /-- the answer to protect; none is ProtectFail -/
  protect : Option (Session × List Byte)
  /-- the answer to unprotect -/
  unprotect : UnprotectAnswer
  deriving DecidableEq, Repr

/-- What the host may do between commands (R69), on the port numbered `port`. Reading has no side effect (R49) and is no
action. -/
inductive HostAction where
  /-- host: v[i] <- x (R25) -/
  | writeV (port : Nat) (i : Fin 8) (x : Word)
  /-- host: byte i of SB <- b (R27) -/
  | writeSB (port : Nat) (i : Fin 16) (b : Byte)
  /-- host: SLEN <- n (R27) -/
  | writeSLEN (port : Nat) (n : BitVec 5)
  /-- host: IB <- bytes (R36) -/
  | writeIB (port : Nat) (bytes : List Byte)
  /-- host: OLEN <- x (R37) -/
  | writeOLEN (port : Nat) (x : Word)
  /-- host: PKT.M <- x (R38) -/
  | writeM (port : Nat) (x : BitVec 1)
  /-- host: PKT.PT <- x (R38) -/
  | writePT (port : Nat) (x : BitVec 7)
  /-- host: PKT.SEQ <- x (R38) -/
  | writeSEQ (port : Nat) (x : BitVec 16)
  /-- host: PKT.TS <- x (R38) -/
  | writeTS (port : Nat) (x : BitVec 32)
  /-- host: PKT.SSRC <- x (R38) -/
  | writeSSRC (port : Nat) (x : BitVec 32)
  /-- host: PKT.PAY <- bytes (R38) -/
  | writePAY (port : Nat) (bytes : List Byte)
  /-- host: PKT.CAP <- x (R38) -/
  | writeCAP (port : Nat) (x : BitVec 32)
  /-- host: CMD <- w, which starts a command (R29), with the engine's answer to what that command may ask -/
  | writeCMD (port : Nat) (w : CmdWord) (draw : EngineDraw)
  /-- reset (R155) -/
  | reset
  deriving DecidableEq, Repr

/-- The state of the block and, after it, the model's own fields. -/
structure State where
  /-- the per-port state of the NPORTS command ports (R42) -/
  ports : List Port
  /-- KS, SUITE, TAGLEN and SESS of direction OUT (R33) -/
  keyOut : KeyState
  /-- KS, SUITE, TAGLEN and SESS of direction IN (R33) -/
  keyIn : KeyState
  /-- FAULT: FLT in bit 0, KIND in bits 7:4, the other bits zero (R32) -/
  fault : BitVec 16
  /-- FCMD: the CMD word of the command that faulted (R32) -/
  fcmd : Option CmdWord
  /-- the model's own: the parameters of R12, taken as an argument. Log entry 2. -/
  params : Params
  /-- the model's own: the port that issued the current command (R42). Log entry 9. -/
  cur : Nat
  /-- the model's own: the engine's answer to the current command. Log entry 5. -/
  draw : EngineDraw
  /-- the model's own: the questions the engine was asked so far, oldest first (R149). Log entry 6. -/
  asked : List EngineQuestion
  /-- the model's own: the host's actions still to happen, in the order they are performed (R28, R52). Log entry 8. -/
  inbox : List HostAction
  deriving DecidableEq, Repr

/-- Why a step may stop with a fault of the MODEL. The block's own faults are no stop: taking one is a next state with
FAULT and FCMD written (R141). What is stuck is the block that took one. -/
inductive Fault where
  /-- Raised by a step, or a command, of a halted block with no reset to come: no step is possible until reset (R142,
  spec/93_implementation_defined.md part 1 row 6). The state it is raised at keeps FAULT and FCMD. Safe. Log entry 10. -/
  | halted
  /-- Raised by a command whose rule reads or writes a buffer outside its length. Such a rule would be an error of the
  spec, and the model faults rather than reads (R50). Safe. Log entry 12. -/
  | undefinedAccess
  deriving DecidableEq, Repr

/-- Why a step may be refused. -/
inductive Refusal where
  /-- Raised by the dispatcher for a command without a meaning; no command is without one. Safe. -/
  | notModelled (mnemonic : String)
  /-- Raised for a host action, or a command, on a port the block does not have. Safe. Log entry 9. -/
  | noSuchPort
  deriving DecidableEq, Repr

/-- The key state of a direction after reset (R35). -/
def KeyState.reset : KeyState := ⟨false, none, none, none⟩

/-- The packet view after reset (R38). -/
def PacketView.reset : PacketView := ⟨none, none, none, none, none, none, none⟩

/-- A port after reset (R156). CMD has no reset value in the spec; 0x0000 is a DESIGN CHOICE, log entry 11. -/
def Port.reset : Port where
  v := Vector.replicate 8 none
  sb := Vector.replicate 16 none
  slen := none
  cmd := 0x0000#16
  status := none
  res := none
  ib := []
  ob := []
  olen := none
  pkt := PacketView.reset

/-- An engine that refuses: the value of `State.draw` before any command. DESIGN CHOICE, log entry 5. -/
def EngineDraw.refused : EngineDraw := ⟨none, none, .authFail⟩

/-- The state after reset of a block with the parameters P (R156). -/
def State.resetOf (P : Params) : State where
  ports := List.replicate P.nports Port.reset
  keyOut := KeyState.reset
  keyIn := KeyState.reset
  fault := 0x0000#16
  fcmd := none
  params := P
  cur := 0
  draw := EngineDraw.refused
  asked := []
  inbox := []

/-- The machine right after reset (R156), its parameters at the values of R12. -/
def State.reset : State := State.resetOf Params.spec

end Sys2Proof.Machine
end

