-- ==== Sys2Proof/Machine/Flags.lean ====
section
/-! DEFINITION. The block's condition indicators: the STATUS codes (spec/60_exceptions.md R139) and the FAULT register
(spec/10_state.md R32, spec/60_exceptions.md R140). There are no other flags (R30). -/

namespace Sys2Proof.Machine

/-- The outcomes STATUS can name (R139). -/
inductive StatusCode where
  | ok
  | malformedLength
  | invalidFieldValue
  | unsupportedCipherSuite
  | invalidKeyLength
  | sessionAlreadyKeyed
  | sessionNotKeyed
  | capacityExceeded
  | authenticationFailure
  | replayFailure
  | engineFailure
  deriving DecidableEq, Repr

/-- The number of a status (R139). -/
def StatusCode.code : StatusCode → BitVec 8
  | .ok => 0#8
  | .malformedLength => 1#8
  | .invalidFieldValue => 2#8
  | .unsupportedCipherSuite => 3#8
  | .invalidKeyLength => 4#8
  | .sessionAlreadyKeyed => 5#8
  | .sessionNotKeyed => 6#8
  | .capacityExceeded => 7#8
  | .authenticationFailure => 8#8
  | .replayFailure => 9#8
  | .engineFailure => 10#8

/-- The block's fault kinds (R140). -/
inductive FaultKind where
  | illegalCommand
  | unwrittenRead
  | contractViolation
  | engineContractViolation
  deriving DecidableEq, Repr

/-- The value of FAULT.KIND (R140). -/
def FaultKind.code : FaultKind → BitVec 4
  | .illegalCommand => 1#4
  | .unwrittenRead => 2#4
  | .contractViolation => 3#4
  | .engineContractViolation => 4#4

/-- FAULT with FLT = 1, the given KIND in bits 7:4, and the reserved bits 3:1 and 15:8 zero (R32, R141). -/
def FaultKind.register (k : FaultKind) : BitVec 16 := 0#8 ++ k.code ++ 0#3 ++ 1#1

/-- FAULT.FLT, bit 0 (R32). -/
def State.flt (s : State) : BitVec 1 := s.fault.extractLsb' 0 1

/-- FAULT.KIND, bits 7:4 (R32). -/
def State.kind (s : State) : BitVec 4 := s.fault.extractLsb' 4 4

/-- The block is halted while FLT = 1 (R142). -/
abbrev State.halted (s : State) : Prop := s.flt = 1#1

end Sys2Proof.Machine
end

