-- ==== Sys2Proof/Machine/Ops.lean ====
section
/-! DEFINITION. The shared operations: how a command ends (spec/00_scope.md R19), the memory primitives (R17), number
conversions (R18), access to registers, fault entry (spec/60_exceptions.md R141), reset (spec/70_reset_and_hazards.md
R155), and the running of one command as one atomic step (spec/10_state.md R24). -/

namespace Sys2Proof.Machine

/-- What a step answers. -/
abbrev Answer := Host.Outcome State Fault Refusal

/-- How the pseudocode of a command stops before its end (R19). -/
inductive Stop where
  /-- fail(code) -/
  | fail (c : StatusCode)
  /-- raise Fault(kind) -/
  | raise (k : FaultKind)
  /-- a MemRead or MemWrite outside its buffer, an error of the spec (R50); log entry 12 -/
  | undefinedAccess
  deriving DecidableEq, Repr

/-- "if not c: stop", one check of a command's pseudocode. -/
def require (c : Prop) [Decidable c] (stop : Stop) : Except Stop Unit :=
  if c then .ok () else .error stop

/-! ## Byte sequences (R15, R17, R43) -/

/-- The unsigned big-endian number formed by a byte sequence (R17). -/
def beNat : List Byte → Nat
  | [] => 0
  | b :: bs => b.toNat * 256 ^ bs.length + beNat bs

/-- The n-byte big-endian representation of x mod 256^n (R17). -/
def beBytes : Nat → Nat → List Byte
  | 0, _ => []
  | n + 1, x => BitVec.ofNat 8 (x / 256 ^ n) :: beBytes n x

/-- MemRead(B, a, n), defined only when a + n ≤ |B| (R17, R50). -/
def memRead (B : List Byte) (a n : Nat) : Except Stop Nat :=
  if a + n ≤ B.length then .ok (beNat ((B.drop a).take n)) else .error .undefinedAccess

/-- MemWrite(B, a, n, x): the bytes at a to a + n replaced, every other byte unchanged (R17). -/
def memWrite (B : List Byte) (a n x : Nat) : Except Stop (List Byte) :=
  if a + n ≤ B.length then .ok (B.take a ++ beBytes n x ++ B.drop (a + n)) else .error .undefinedAccess

/-- The byte B<a> (R15). -/
def byteAt (B : List Byte) (a : Nat) : Except Stop Byte :=
  match B[a]? with
  | some b => .ok b
  | none => .error .undefinedAccess

/-- n zero bytes. -/
def zeros (n : Nat) : List Byte := List.replicate n 0#8

/-! ## Numbers (R14, R18) -/

/-- zext_32 of a number below 2^32. -/
def zext32 (x : Nat) : Word := BitVec.ofNat 32 x

/-- sext_32 of the 24-bit number x. -/
def sext24 (x : Nat) : Word := (BitVec.ofNat 24 x).signExtend 32

/-- zext_32 of the len bits of b from bit lo up. -/
def field (b : Byte) (lo len : Nat) : Word := (b.extractLsb' lo len).setWidth 32

/-! ## Registers of a port -/

/-- v[i] <- x (R16). -/
def Port.setV (p : Port) (i : Fin 8) (x : Word) : Port := { p with v := p.v.set i (some x) }

/-- SB<0..n) <- bytes and SLEN <- n, where n is the number of bytes; SB<n..16) unchanged (R111). -/
def Port.setStreamId (p : Port) (bytes : List Byte) : Port :=
  { p with
    sb := Vector.ofFn fun i : Fin 16 => if i.val < bytes.length then bytes[i.val]? else p.sb.get i
    slen := some (BitVec.ofNat 5 bytes.length) }

/-- OB <- bytes (R37). -/
def Port.setOB (p : Port) (bytes : List Byte) : Port := { p with ob := bytes }

/-- IB <- bytes (R36). -/
def Port.setIB (p : Port) (bytes : List Byte) : Port := { p with ib := bytes }

/-- RES <- x (R31). -/
def Port.setRES (p : Port) (x : Word) : Port := { p with res := some x }

/-- PKT.PAY <- bytes (R38, R138). -/
def Port.setPAY (p : Port) (bytes : List Byte) : Port := { p with pkt := { p.pkt with pay := some bytes } }

/-- STATUS <- code (R30, R139). -/
def Port.setStatus (p : Port) (c : StatusCode) : Port := { p with status := some c.code }

/-! ## The parts of the state -/

/-- The port that issued the command, if the block has it (R42). -/
def State.port? (s : State) : Option Port := s.ports[s.cur]?

/-- The per-port state of the issuing port replaced. -/
def State.setPort (s : State) (p : Port) : State := { s with ports := s.ports.set s.cur p }

/-- The key-state registers of a direction (R33). -/
def State.key (s : State) : Direction → KeyState
  | .out => s.keyOut
  | .inn => s.keyIn

/-- The key-state registers of a direction replaced. -/
def State.setKey (s : State) (d : Direction) (k : KeyState) : State :=
  match d with
  | .out => { s with keyOut := k }
  | .inn => { s with keyIn := k }

/-- The block asks the engine (R149): the question is recorded. -/
def State.ask (s : State) (q : EngineQuestion) : State := { s with asked := s.asked ++ [q] }

/-! ## Fault entry, and the way out -/

/-- Fault entry (R141): with FLT = 0, FLT <- 1, KIND <- kind and FCMD <- the CMD word, and no other write. With FLT = 1
neither register is written (R32, R142). -/
def State.raiseFault (s : State) (k : FaultKind) (w : CmdWord) : State :=
  if s.halted then s else { s with fault := k.register, fcmd := some w }

/-- Part 1 of reset (R155): destroy is asked of the session of a keyed direction. -/
def KeyState.destroyed (k : KeyState) : List EngineQuestion :=
  if k.ks then k.sess.toList.map .destroy else []

/-- Reset (R155), the only way out of a fault (R142): destroy is asked for each keyed direction, then every piece of
state takes its reset value (R156). The parameters stay (R157), as do the host's later actions. Log entry 20. -/
def State.resetBlock (s : State) : State :=
  { State.resetOf s.params with
    draw := s.draw
    asked := s.asked ++ s.keyOut.destroyed ++ s.keyIn.destroyed
    inbox := s.inbox }

/-! ## Running a command -/

/-- A command that stopped early (R19): fail sets STATUS and writes nothing else, raise enters the fault with the
command's word, both without any write of the command itself. -/
def State.stopped (s : State) (i : Instr) (p : Port) : Stop → Answer
  | .fail c => .next (s.setPort (p.setStatus c))
  | .raise k => .next (s.raiseFault k (encode i))
  | .undefinedAccess => .fault .undefinedAccess

/-- A command that works on the issuing port alone, as one atomic step (R24, R152): a halted block takes no step (R142,
R145); otherwise the command's writes are made together with STATUS <- OK, or it stops. -/
def runPort (i : Instr) (body : Params → Port → Except Stop Port) (s : State) : Answer :=
  if s.halted then .fault .halted
  else match s.port? with
    | none => .refused .noSuchPort
    | some p =>
      match body s.params p with
      | .ok p' => .next (s.setPort (p'.setStatus .ok))
      | .error stop => s.stopped i p stop

/-- What a wrapper command does once its checks before the engine have passed: the question it asks, and what it makes
of the answer. -/
structure EngineCall where
  question : EngineQuestion
  finish : EngineDraw → Except Stop (KeyState × Port)

/-- A command of direction d that asks the engine, as one atomic step (R24). Its checks come first; if they pass, the
engine is asked and the answer is the step's free input (R149). Only the key state of d and the issuing port are written
(R152). -/
def runEngine (i : Instr) (d : Direction) (body : Params → KeyState → Port → Except Stop EngineCall) (s : State) :
    Answer :=
  if s.halted then .fault .halted
  else match s.port? with
    | none => .refused .noSuchPort
    | some p =>
      match body s.params (s.key d) p with
      | .error stop => s.stopped i p stop
      | .ok call =>
        match call.finish s.draw with
        | .error stop => (s.ask call.question).stopped i p stop
        | .ok (k, p') => .next (((s.ask call.question).setKey d k).setPort (p'.setStatus .ok))

end Sys2Proof.Machine
end

