-- ==== Sys2Proof/Machine/Operands.lean ====
section
/-! DEFINITION. The operand forms (spec/30_encoding.md R64): a read of a register that may hold no value, the registers
and buffers a command reads, and the checks of the caller contract (spec/40_codec_fixed.md R72). -/

namespace Sys2Proof.Machine

/-- A read of a register: when it holds no value the read raises UnwrittenRead (R16). -/
def held {α : Type} : Option α → Except Stop α
  | some x => .ok x
  | none => .error (.raise .unwrittenRead)

/-- A read of several registers, one after the other. -/
def heldAll {α : Type} : List (Option α) → Except Stop (List α)
  | [] => .ok []
  | r :: rs => do
    let x ← held r
    let xs ← heldAll rs
    return x :: xs

/-- v[i] (R16, R25). -/
def Port.readV (p : Port) (i : Fin 8) : Except Stop Word := held (p.v.get i)

/-- SLEN as a number (R27). -/
def Port.readSLEN (p : Port) : Except Stop Nat := do
  let n ← held p.slen
  return n.toNat

/-- The bytes SB<0..n) (R27, R112). -/
def Port.readSB (p : Port) (n : Nat) : Except Stop (List Byte) := heldAll (p.sb.toList.take n)

/-- The length check of a PARSE: |IB| is a legal size of the type, or MalformedLength (R71). -/
def Port.requireIB (p : Port) (c : Nat → Bool) : Except Stop Unit :=
  require (c p.ib.length = true) (.fail .malformedLength)

/-- A clause of the caller contract, whose violation is a fault (R72). -/
def contract (c : Prop) [Decidable c] : Except Stop Unit := require c (.raise .contractViolation)

/-- The last check of a WRITE: OLEN, read here, equals the value size (R72). -/
def Port.requireOLEN (p : Port) (size : Nat) : Except Stop Unit := do
  let olen ← held p.olen
  contract (olen.toNat = size)

/-- The scalable predicate of FrameMarking on v[4] to v[7] (R119). -/
def scalable (P : Params) (bs tid lid tl0 : Word) : Bool :=
  bs != 0#32
    || (tid != 0#32 && tid != P.noTemporalIdx.setWidth 32)
    || (lid != 0#32 && lid != P.noSpatialIdx.setWidth 32)
    || (tl0 != 0#32 && tl0 != P.noTl0PicIdx.setWidth 32)

/-- The value size of a FrameMarking (R119, R122, R123). -/
def frameMarkingSize (P : Params) (bs tid lid tl0 : Word) : Nat :=
  if scalable P bs tid lid tl0 then 3 else 1

/-- The OHB (R126): marker and payload type, then SEQ, TS and SSRC, each big-endian (R44). -/
def ohb (m : BitVec 1) (pt : BitVec 7) (seq : BitVec 16) (ts ssrc : BitVec 32) : List Byte :=
  [m ++ pt] ++ beBytes 2 seq.toNat ++ beBytes 4 ts.toNat ++ beBytes 4 ssrc.toNat

end Sys2Proof.Machine
end

