-- ==== Sys2Proof/Machine/CodecFixed.lean ====
section
/-! DEFINITION. The nine fixed-size codec types (spec/40_codec_fixed.md R71 to R108). Each `…Body` is a rule's
pseudocode on the issuing port; STATUS <- OK and the atomic write are `runPort`'s. -/

namespace Sys2Proof.Machine

/-- A VSIZE of a fixed-size type: RES <- the type's constant, nothing read (R73). -/
def vsizeBody (size : Nat) (_ : Params) (p : Port) : Except Stop Port :=
  .ok (p.setRES (zext32 size))

/-! ## AbsoluteSendTime (R76 to R79) -/

def parseAstBody (_ : Params) (p : Port) : Except Stop Port := do
  p.requireIB (· == 3)
  let t ← memRead p.ib 0 3
  return p.setV 0 (zext32 t)

/-- PARSE.AST (R76). -/
def execParseAst (s : State) : Answer := runPort .parseAst parseAstBody s

def writeAstBody (_ : Params) (p : Port) : Except Stop Port := do
  let t ← p.readV 0
  contract (t.toNat ≤ 0x00FFFFFF)
  p.requireOLEN 3
  let ob ← memWrite (zeros 3) 0 3 t.toNat
  return p.setOB ob

/-- WRITE.AST (R77). -/
def execWriteAst (s : State) : Answer := runPort .writeAst writeAstBody s

/-- VSIZE.AST (R78). -/
def execVsizeAst (s : State) : Answer := runPort .vsizeAst (vsizeBody 3) s

/-! ## AudioLevel (R80 to R82) -/

def parseAlBody (_ : Params) (p : Port) : Except Stop Port := do
  p.requireIB (· == 1)
  let b ← byteAt p.ib 0
  return (p.setV 0 (field b 7 1)).setV 1 (field b 0 7)

/-- PARSE.AL (R80). -/
def execParseAl (s : State) : Answer := runPort .parseAl parseAlBody s

def writeAlBody (_ : Params) (p : Port) : Except Stop Port := do
  let va ← p.readV 0
  let lv ← p.readV 1
  contract (va.toNat ≤ 1)
  contract (lv.toNat ≤ 127)
  p.requireOLEN 1
  return p.setOB [va.setWidth 8 <<< 7 ||| lv.setWidth 8]

/-- WRITE.AL (R81). -/
def execWriteAl (s : State) : Answer := runPort .writeAl writeAlBody s

/-- VSIZE.AL (R82). -/
def execVsizeAl (s : State) : Answer := runPort .vsizeAl (vsizeBody 1) s

/-! ## TransmissionOffset (R83 to R85) -/

def parseToffBody (_ : Params) (p : Port) : Except Stop Port := do
  p.requireIB (· == 3)
  let raw ← memRead p.ib 0 3
  return p.setV 0 (sext24 raw)

/-- PARSE.TOFF (R83). -/
def execParseToff (s : State) : Answer := runPort .parseToff parseToffBody s

def writeToffBody (_ : Params) (p : Port) : Except Stop Port := do
  let o ← p.readV 0
  contract (-8388608 ≤ o.toInt ∧ o.toInt ≤ 8388607)
  p.requireOLEN 3
  let ob ← memWrite (zeros 3) 0 3 (o.toInt % 2 ^ 24).toNat
  return p.setOB ob

/-- WRITE.TOFF (R84). -/
def execWriteToff (s : State) : Answer := runPort .writeToff writeToffBody s

/-- VSIZE.TOFF (R85). -/
def execVsizeToff (s : State) : Answer := runPort .vsizeToff (vsizeBody 3) s

/-! ## TransportSequenceNumber (R86 to R88) -/

def parseTsnBody (_ : Params) (p : Port) : Except Stop Port := do
  p.requireIB (· == 2)
  let n ← memRead p.ib 0 2
  return p.setV 0 (zext32 n)

/-- PARSE.TSN (R86). -/
def execParseTsn (s : State) : Answer := runPort .parseTsn parseTsnBody s

def writeTsnBody (_ : Params) (p : Port) : Except Stop Port := do
  let n ← p.readV 0
  contract (n.toNat ≤ 0xFFFF)
  p.requireOLEN 2
  let ob ← memWrite (zeros 2) 0 2 n.toNat
  return p.setOB ob

/-- WRITE.TSN (R87). -/
def execWriteTsn (s : State) : Answer := runPort .writeTsn writeTsnBody s

/-- VSIZE.TSN (R88). -/
def execVsizeTsn (s : State) : Answer := runPort .vsizeTsn (vsizeBody 2) s

/-! ## VideoOrientation, rotation form and raw form (R89 to R95) -/

def parseCvoBody (P : Params) (p : Port) : Except Stop Port := do
  p.requireIB (· == 1)
  let b ← byteAt p.ib 0
  return p.setV 0 ((P.rotationOf b).setWidth 32)

/-- PARSE.CVO (R90). -/
def execParseCvo (s : State) : Answer := runPort .parseCvo parseCvoBody s

def writeCvoBody (P : Params) (p : Port) : Except Stop Port := do
  let r ← p.readV 0
  contract (r.toNat ≤ 3)
  p.requireOLEN 1
  return p.setOB [P.cvoOf (r.setWidth 2)]

/-- WRITE.CVO (R91). -/
def execWriteCvo (s : State) : Answer := runPort .writeCvo writeCvoBody s

/-- VSIZE.CVO (R92). -/
def execVsizeCvo (s : State) : Answer := runPort .vsizeCvo (vsizeBody 1) s

def parseCvorawBody (_ : Params) (p : Port) : Except Stop Port := do
  p.requireIB (· == 1)
  let b ← byteAt p.ib 0
  return p.setV 0 (b.setWidth 32)

/-- PARSE.CVORAW (R93). -/
def execParseCvoraw (s : State) : Answer := runPort .parseCvoraw parseCvorawBody s

def writeCvorawBody (_ : Params) (p : Port) : Except Stop Port := do
  let b ← p.readV 0
  contract (b.toNat ≤ 0xFF)
  p.requireOLEN 1
  return p.setOB [b.setWidth 8]

/-- WRITE.CVORAW (R94). -/
def execWriteCvoraw (s : State) : Answer := runPort .writeCvoraw writeCvorawBody s

/-- VSIZE.CVORAW (R95). -/
def execVsizeCvoraw (s : State) : Answer := runPort .vsizeCvoraw (vsizeBody 1) s

/-! ## PlayoutDelayLimits (R96 to R100) -/

/-- The field of bits hi:lo of the word W of R96, as a number. -/
def pdlRaw (W lo : Nat) : Nat := ((BitVec.ofNat 24 W).extractLsb' lo 12).toNat

def parsePdlBody (P : Params) (p : Port) : Except Stop Port := do
  p.requireIB (· == 3)
  let W ← memRead p.ib 0 3
  require (pdlRaw W 12 ≤ pdlRaw W 0) (.fail .invalidFieldValue)
  return (p.setV 0 (zext32 (pdlRaw W 12 * P.pdlG))).setV 1 (zext32 (pdlRaw W 0 * P.pdlG))

/-- PARSE.PDL (R98). -/
def execParsePdl (s : State) : Answer := runPort .parsePdl parsePdlBody s

def writePdlBody (P : Params) (p : Port) : Except Stop Port := do
  let mn ← p.readV 0
  let mx ← p.readV 1
  contract (0 ≤ mn.toInt ∧ mn.toInt ≤ mx.toInt ∧ mx.toInt ≤ P.pdlMaxMs)
  p.requireOLEN 3
  let ob ← memWrite (zeros 3) 0 3 ((mn.toNat / P.pdlG) <<< 12 ||| mx.toNat / P.pdlG)
  return p.setOB ob

/-- WRITE.PDL (R99). -/
def execWritePdl (s : State) : Answer := runPort .writePdl writePdlBody s

/-- VSIZE.PDL (R100). -/
def execVsizePdl (s : State) : Answer := runPort .vsizePdl (vsizeBody 3) s

/-! ## VideoContentType (R101 to R104) -/

def parseVctBody (P : Params) (p : Port) : Except Stop Port := do
  p.requireIB (· == 1)
  let b ← byteAt p.ib 0
  require (b.toNat < P.vctCount) (.fail .invalidFieldValue)
  return p.setV 0 (b.setWidth 32)

/-- PARSE.VCT (R102). -/
def execParseVct (s : State) : Answer := runPort .parseVct parseVctBody s

def writeVctBody (P : Params) (p : Port) : Except Stop Port := do
  let c ← p.readV 0
  contract (c.toNat < P.vctCount)
  p.requireOLEN 1
  return p.setOB [c.setWidth 8]

/-- WRITE.VCT (R103). -/
def execWriteVct (s : State) : Answer := runPort .writeVct writeVctBody s

/-- VSIZE.VCT (R104). -/
def execVsizeVct (s : State) : Answer := runPort .vsizeVct (vsizeBody 1) s

/-! ## VideoTimingExtension (R105 to R108) -/

def parseVtBody (_ : Params) (p : Port) : Except Stop Port := do
  p.requireIB (· == 12)
  let d0 ← memRead p.ib 0 2
  let d1 ← memRead p.ib 2 2
  let d2 ← memRead p.ib 4 2
  let d3 ← memRead p.ib 6 2
  let d4 ← memRead p.ib 8 2
  let d5 ← memRead p.ib 10 2
  return (((((p.setV 0 (zext32 d0)).setV 1 (zext32 d1)).setV 2 (zext32 d2)).setV 3 (zext32 d3)).setV 4
    (zext32 d4)).setV 5 (zext32 d5)

/-- PARSE.VT (R106). -/
def execParseVt (s : State) : Answer := runPort .parseVt parseVtBody s

def writeVtBody (_ : Params) (p : Port) : Except Stop Port := do
  let d0 ← p.readV 0
  let d1 ← p.readV 1
  let d2 ← p.readV 2
  let d3 ← p.readV 3
  let d4 ← p.readV 4
  let d5 ← p.readV 5
  contract (d0.toNat ≤ 0xFFFF ∧ d1.toNat ≤ 0xFFFF ∧ d2.toNat ≤ 0xFFFF ∧ d3.toNat ≤ 0xFFFF ∧ d4.toNat ≤ 0xFFFF ∧
    d5.toNat ≤ 0xFFFF)
  p.requireOLEN 12
  let ob ← memWrite (zeros 12) 0 2 d0.toNat
  let ob ← memWrite ob 2 2 d1.toNat
  let ob ← memWrite ob 4 2 d2.toNat
  let ob ← memWrite ob 6 2 d3.toNat
  let ob ← memWrite ob 8 2 d4.toNat
  let ob ← memWrite ob 10 2 d5.toNat
  return p.setOB ob

/-- WRITE.VT (R107). -/
def execWriteVt (s : State) : Answer := runPort .writeVt writeVtBody s

/-- VSIZE.VT (R108). -/
def execVsizeVt (s : State) : Answer := runPort .vsizeVt (vsizeBody 12) s

end Sys2Proof.Machine
end

