-- ==== Sys2Proof/Machine/CodecVariable.lean ====
section
/-! DEFINITION. The three variable-size codec types and the VP9 layer-id helper (spec/41_codec_variable.md R109 to
R125). -/

namespace Sys2Proof.Machine

/-! ## StreamId and RepairedStreamId (R109 to R116) -/

/-- The pseudocode of PARSE.RSID (R111), which PARSE.RRSID has exactly (R114). Its 16 is RSID_MAX (R12, R109). -/
def parseStreamIdBody (P : Params) (p : Port) : Except Stop Port := do
  p.requireIB (· ≤ P.rsidMax.val)
  require (p.ib.length ≠ 0) (.fail .invalidFieldValue)
  let b0 ← byteAt p.ib 0
  require (b0 ≠ 0x00#8) (.fail .invalidFieldValue)
  return p.setStreamId p.ib

/-- The pseudocode of WRITE.RSID (R112), which WRITE.RRSID has exactly (R115). Its 16 is RSID_MAX (R12, R109). -/
def writeStreamIdBody (P : Params) (p : Port) : Except Stop Port := do
  let n ← p.readSLEN
  contract (n ≠ 0 ∧ n ≤ P.rsidMax.val)
  let bytes ← p.readSB n
  let b0 ← byteAt bytes 0
  contract (b0 ≠ 0x00#8)
  p.requireOLEN n
  return p.setOB bytes

/-- The pseudocode of VSIZE.RSID (R113), which VSIZE.RRSID has exactly (R116): SLEN unchecked. -/
def vsizeStreamIdBody (_ : Params) (p : Port) : Except Stop Port := do
  let n ← p.readSLEN
  return p.setRES (zext32 n)

/-- PARSE.RSID (R111). -/
def execParseRsid (s : State) : Answer := runPort .parseRsid parseStreamIdBody s

/-- WRITE.RSID (R112). -/
def execWriteRsid (s : State) : Answer := runPort .writeRsid writeStreamIdBody s

/-- VSIZE.RSID (R113). -/
def execVsizeRsid (s : State) : Answer := runPort .vsizeRsid vsizeStreamIdBody s

/-- PARSE.RRSID (R114). -/
def execParseRrsid (s : State) : Answer := runPort .parseRrsid parseStreamIdBody s

/-- WRITE.RRSID (R115). -/
def execWriteRrsid (s : State) : Answer := runPort .writeRrsid writeStreamIdBody s

/-- VSIZE.RRSID (R116). -/
def execVsizeRrsid (s : State) : Answer := runPort .vsizeRrsid vsizeStreamIdBody s

/-- The text reading of a StreamId value (R110): the bytes before its first 0x00. It is the host's reading; no command
makes it. -/
def streamIdText (value : List Byte) : List Byte := value.takeWhile (· != 0x00#8)

/-! ## FrameMarking (R117 to R124) -/

def parseFmBody (_ : Params) (p : Port) : Except Stop Port := do
  p.requireIB fun n => n == 1 || n == 3
  let b0 ← byteAt p.ib 0
  let q := (((p.setV 0 (field b0 7 1)).setV 1 (field b0 6 1)).setV 2 (field b0 5 1)).setV 3 (field b0 4 1)
  if p.ib.length = 3 then
    let b1 ← byteAt p.ib 1
    let b2 ← byteAt p.ib 2
    return (((q.setV 4 (field b0 3 1)).setV 5 (field b0 0 3)).setV 6 (b1.setWidth 32)).setV 7 (b2.setWidth 32)
  else
    return (((q.setV 4 0#32).setV 5 0#32).setV 6 0#32).setV 7 0#32

/-- PARSE.FM (R121). -/
def execParseFm (s : State) : Answer := runPort .parseFm parseFmBody s

/-- The four flag bits in bits 7:4 of byte 0 (R120). -/
def flagBits (start fin ind disc : Word) : Byte :=
  start.setWidth 8 <<< 7 ||| fin.setWidth 8 <<< 6 ||| ind.setWidth 8 <<< 5 ||| disc.setWidth 8 <<< 4

def writeFmBody (P : Params) (p : Port) : Except Stop Port := do
  let start ← p.readV 0
  let fin ← p.readV 1
  let ind ← p.readV 2
  let disc ← p.readV 3
  let bs ← p.readV 4
  let tid ← p.readV 5
  let lid ← p.readV 6
  let tl0 ← p.readV 7
  contract (start.toNat ≤ 1 ∧ fin.toNat ≤ 1 ∧ ind.toNat ≤ 1 ∧ disc.toNat ≤ 1 ∧ bs.toNat ≤ 1)
  contract (tid.toNat ≤ 7 ∨ tid = P.noTemporalIdx.setWidth 32)
  contract (lid.toNat ≤ 0xFF ∧ tl0.toNat ≤ 0xFF)
  p.requireOLEN (frameMarkingSize P bs tid lid tl0)
  if scalable P bs tid lid tl0 then
    return p.setOB [flagBits start fin ind disc ||| bs.setWidth 8 <<< 3 ||| (tid.extractLsb' 0 3).setWidth 8,
      lid.setWidth 8, tl0.setWidth 8]
  else
    return p.setOB [flagBits start fin ind disc]

/-- WRITE.FM (R122). -/
def execWriteFm (s : State) : Answer := runPort .writeFm writeFmBody s

def vsizeFmBody (P : Params) (p : Port) : Except Stop Port := do
  let bs ← p.readV 4
  let tid ← p.readV 5
  let lid ← p.readV 6
  let tl0 ← p.readV 7
  return p.setRES (zext32 (frameMarkingSize P bs tid lid tl0))

/-- VSIZE.FM (R123). -/
def execVsizeFm (s : State) : Answer := runPort .vsizeFm vsizeFmBody s

/-! ## VP9 layer-id helper (R125) -/

def vp9lidBody (_ : Params) (p : Port) : Except Stop Port := do
  let sidx ← p.readV 0
  let tus ← p.readV 1
  let ipp ← p.readV 2
  contract (sidx.toNat ≤ 0xFF ∧ tus.toNat ≤ 1 ∧ ipp.toNat ≤ 1)
  return p.setRES ((Config.vp9LayerIdMap (sidx.setWidth 8) (tus.setWidth 1) (ipp.setWidth 1)).setWidth 32)

/-- VP9LID (R125). -/
def execVp9lid (s : State) : Answer := runPort .vp9lid vp9lidBody s

end Sys2Proof.Machine
end

