-- ==== Sys2Proof/Machine/Wrapper.lean ====
section
/-! DEFINITION. The packet wrapper (spec/42_packet_wrapper.md R126 to R138). Each body makes a rule's checks up to its
question to the engine; `finish` is the rest of the rule on the engine's answer. -/

namespace Sys2Proof.Machine

/-- The pseudocode of SETKEY for direction d (R131, R132). -/
def setkeyBody (d : Direction) (P : Params) (k : KeyState) (p : Port) : Except Stop EngineCall := do
  require (k.ks = false) (.fail .sessionAlreadyKeyed)
  let v0 ← p.readV 0
  match P.suiteOf v0 with
  | none => throw (.fail .unsupportedCipherSuite)
  | some row =>
    require (p.ib.length = row.keySaltLen) (.fail .invalidKeyLength)
    return {
      question := .create row.tag d p.ib P.replayWindow P.allowRepeat
      finish := fun draw =>
        match draw.create with
        | none => .error (.fail .engineFailure)
        | some session =>
          .ok ({ ks := true, suite := some row.tag, tagLen := some row.tagLen, sess := some session }, p) }

/-- SETKEY.OUT (R131). -/
def execSetkeyOut (s : State) : Answer := runEngine .setkeyOut .out (setkeyBody .out) s

/-- SETKEY.IN (R132). -/
def execSetkeyIn (s : State) : Answer := runEngine .setkeyIn .inn (setkeyBody .inn) s

/-- The pseudocode of ENCRYPT (R133). The registers are read in the order the pseudocode names them, log entry 16. -/
def encryptBody (P : Params) (k : KeyState) (p : Port) : Except Stop EngineCall := do
  require (k.ks = true) (.fail .sessionNotKeyed)
  let pay ← held p.pkt.pay
  let tagLen ← held k.tagLen
  let cap ← held p.pkt.cap
  require (P.ohbSize + pay.length + tagLen.toNat ≤ cap.toNat) (.fail .capacityExceeded)
  let m ← held p.pkt.m
  let pt ← held p.pkt.pt
  let seq ← held p.pkt.seq
  let ts ← held p.pkt.ts
  let ssrc ← held p.pkt.ssrc
  let session ← held k.sess
  let buf := [P.versionByte] ++ ohb m pt seq ts ssrc ++ pay
  return {
    question := .protect session buf
    finish := fun draw =>
      match draw.protect with
      | none => .error (.fail .engineFailure)
      | some (session', out) => do
        require (out.length = buf.length + tagLen.toNat) (.raise .engineContractViolation)
        return ({ k with sess := some session' }, p.setPAY (out.drop 1)) }

/-- ENCRYPT (R133). -/
def execEncrypt (s : State) : Answer := runEngine .encrypt .out encryptBody s

/-- The pseudocode of DECRYPT (R134). -/
def decryptBody (P : Params) (k : KeyState) (p : Port) : Except Stop EngineCall := do
  require (k.ks = true) (.fail .sessionNotKeyed)
  let tagLen ← held k.tagLen
  require (P.ohbSize + tagLen.toNat ≤ p.ib.length) (.fail .malformedLength)
  let session ← held k.sess
  let buf := [P.versionByte] ++ p.ib
  return {
    question := .unprotect session buf
    finish := fun draw =>
      match draw.unprotect with
      | .authFail => .error (.fail .authenticationFailure)
      | .replayFail => .error (.fail .replayFailure)
      | .done session' out => do
        require (1 + P.ohbSize ≤ out.length ∧ out.length ≤ buf.length) (.raise .engineContractViolation)
        return ({ k with sess := some session' }, p.setIB (out.drop (1 + P.ohbSize))) }

/-- DECRYPT (R134). -/
def execDecrypt (s : State) : Answer := runEngine .decrypt .inn decryptBody s

/-- The pseudocode of OVERHEAD on the key state of direction OUT (R135). -/
def overheadBody (k : KeyState) (P : Params) (p : Port) : Except Stop Port :=
  if k.ks then do
    let tagLen ← held k.tagLen
    return p.setRES (zext32 (P.ohbSize + tagLen.toNat))
  else
    .ok (p.setRES 0#32)

/-- OVERHEAD (R135). -/
def execOverhead (s : State) : Answer := runPort .overhead (overheadBody s.keyOut) s

end Sys2Proof.Machine
end

