-- ==== Sys2Proof/Machine/Dispatch.lean ====
section
/-! DEFINITION. The dispatcher: one arm per command, each one call of that command's meaning. -/

namespace Sys2Proof.Machine

def exec (i : Instr) (s : State) : Host.Outcome State Fault Refusal :=
  match i with
  | .parseAst => Sys2Proof.Machine.execParseAst s
  | .parseAl => Sys2Proof.Machine.execParseAl s
  | .parseToff => Sys2Proof.Machine.execParseToff s
  | .parseTsn => Sys2Proof.Machine.execParseTsn s
  | .parseCvo => Sys2Proof.Machine.execParseCvo s
  | .parseCvoraw => Sys2Proof.Machine.execParseCvoraw s
  | .parsePdl => Sys2Proof.Machine.execParsePdl s
  | .parseVct => Sys2Proof.Machine.execParseVct s
  | .parseVt => Sys2Proof.Machine.execParseVt s
  | .parseRsid => Sys2Proof.Machine.execParseRsid s
  | .parseRrsid => Sys2Proof.Machine.execParseRrsid s
  | .parseFm => Sys2Proof.Machine.execParseFm s
  | .writeAst => Sys2Proof.Machine.execWriteAst s
  | .writeAl => Sys2Proof.Machine.execWriteAl s
  | .writeToff => Sys2Proof.Machine.execWriteToff s
  | .writeTsn => Sys2Proof.Machine.execWriteTsn s
  | .writeCvo => Sys2Proof.Machine.execWriteCvo s
  | .writeCvoraw => Sys2Proof.Machine.execWriteCvoraw s
  | .writePdl => Sys2Proof.Machine.execWritePdl s
  | .writeVct => Sys2Proof.Machine.execWriteVct s
  | .writeVt => Sys2Proof.Machine.execWriteVt s
  | .writeRsid => Sys2Proof.Machine.execWriteRsid s
  | .writeRrsid => Sys2Proof.Machine.execWriteRrsid s
  | .writeFm => Sys2Proof.Machine.execWriteFm s
  | .vsizeAst => Sys2Proof.Machine.execVsizeAst s
  | .vsizeAl => Sys2Proof.Machine.execVsizeAl s
  | .vsizeToff => Sys2Proof.Machine.execVsizeToff s
  | .vsizeTsn => Sys2Proof.Machine.execVsizeTsn s
  | .vsizeCvo => Sys2Proof.Machine.execVsizeCvo s
  | .vsizeCvoraw => Sys2Proof.Machine.execVsizeCvoraw s
  | .vsizePdl => Sys2Proof.Machine.execVsizePdl s
  | .vsizeVct => Sys2Proof.Machine.execVsizeVct s
  | .vsizeVt => Sys2Proof.Machine.execVsizeVt s
  | .vsizeRsid => Sys2Proof.Machine.execVsizeRsid s
  | .vsizeRrsid => Sys2Proof.Machine.execVsizeRrsid s
  | .vsizeFm => Sys2Proof.Machine.execVsizeFm s
  | .vp9lid => Sys2Proof.Machine.execVp9lid s
  | .setkeyOut => Sys2Proof.Machine.execSetkeyOut s
  | .setkeyIn => Sys2Proof.Machine.execSetkeyIn s
  | .encrypt => Sys2Proof.Machine.execEncrypt s
  | .decrypt => Sys2Proof.Machine.execDecrypt s
  | .overhead => Sys2Proof.Machine.execOverhead s

end Sys2Proof.Machine
end

