-- ==== Sys2Proof/Machine/HostActions.lean ====
section
/-! DEFINITION. The host's actions between commands (spec/10_state.md R25 to R38, spec/70_reset_and_hazards.md R155), the
acceptance of a command word, and what the host can read. -/

namespace Sys2Proof.Machine

/-- A host write of a register or buffer of a port (R25, R27, R36 to R38). -/
def State.hostWrite (s : State) (n : Nat) (f : Port → Port) : Answer :=
  match s.ports[n]? with
  | none => .refused .noSuchPort
  | some p => .next { s with ports := s.ports.set n (f p) }

/-- The command word w, written to CMD of port n, becomes the current command: CMD holds it, the port is the issuing
one, and the engine will answer with `draw`. -/
def State.accept (s : State) (n : Nat) (w : CmdWord) (draw : EngineDraw) : State :=
  { s with
    ports := s.ports.modify n fun p => { p with cmd := w }
    cur := n
    draw := draw }

/-- What one host action asks of the block. -/
inductive Request where
  /-- the action is done, and this is the step's answer -/
  | done (a : Answer)
  /-- the block performs the command word w at this state -/
  | command (w : CmdWord) (s : State)

/-- One host action (R69) at a running block that has taken it from the inbox. A CMD write starts the command (R29). -/
def State.perform (s : State) : HostAction → Request
  | .writeV n i x => .done (s.hostWrite n fun p => { p with v := p.v.set i (some x) })
  | .writeSB n i b => .done (s.hostWrite n fun p => { p with sb := p.sb.set i (some b) })
  | .writeSLEN n x => .done (s.hostWrite n fun p => { p with slen := some x })
  | .writeIB n bytes => .done (s.hostWrite n fun p => { p with ib := bytes })
  | .writeOLEN n x => .done (s.hostWrite n fun p => { p with olen := some x })
  | .writeM n x => .done (s.hostWrite n fun p => { p with pkt := { p.pkt with m := some x } })
  | .writePT n x => .done (s.hostWrite n fun p => { p with pkt := { p.pkt with pt := some x } })
  | .writeSEQ n x => .done (s.hostWrite n fun p => { p with pkt := { p.pkt with seq := some x } })
  | .writeTS n x => .done (s.hostWrite n fun p => { p with pkt := { p.pkt with ts := some x } })
  | .writeSSRC n x => .done (s.hostWrite n fun p => { p with pkt := { p.pkt with ssrc := some x } })
  | .writePAY n bytes => .done (s.hostWrite n fun p => { p with pkt := { p.pkt with pay := some bytes } })
  | .writeCAP n x => .done (s.hostWrite n fun p => { p with pkt := { p.pkt with cap := some x } })
  | .writeCMD n w draw =>
    if n < s.ports.length then .command w (s.accept n w draw) else .done (.refused .noSuchPort)
  | .reset => .done (.next s.resetBlock)

/-- The host actions after the first reset among them, if there is one. -/
def afterReset : List HostAction → Option (List HostAction)
  | [] => none
  | .reset :: rest => some rest
  | _ :: rest => afterReset rest

/-- A halted block has no step but the reset to come (R142; spec/93_implementation_defined.md part 1 row 6: stuck until
reset). The CMD writes before it perform nothing, and what the host writes before it that reset clears (R155). Log
entry 10. -/
def State.leaveHalt (s : State) : Answer :=
  match afterReset s.inbox with
  | none => .fault .halted
  | some rest => .next { s with inbox := rest }.resetBlock

/-- The next request. A running block with no action waiting does nothing, since no command runs until the host writes
CMD (R29), log entry 8. -/
def State.nextRequest (s : State) : Request :=
  if s.halted then .done s.leaveHalt
  else match s.inbox with
    | [] => .done (.next s)
    | a :: rest => { s with inbox := rest }.perform a

/-- The host's write of the word w to CMD of the current port put before everything else the host will do. -/
def State.pushCommand (s : State) (w : CmdWord) : State :=
  { s with inbox := .writeCMD s.cur w s.draw :: s.inbox }

/-- The registers and buffers of a port that the host can read (R25 to R38): all but CMD (R29). -/
structure PortView where
  v : Vector (Option Word) 8
  sb : Vector (Option Byte) 16
  slen : Option (BitVec 5)
  status : Option (BitVec 8)
  res : Option Word
  ib : List Byte
  ob : List Byte
  olen : Option Word
  pkt : PacketView
  deriving DecidableEq, Repr

/-- The key-state registers of a direction that the host can read: all but SESS (R33, R40). -/
structure KeyView where
  ks : Bool
  suite : Option (BitVec 16)
  tagLen : Option (BitVec 8)
  deriving DecidableEq, Repr

/-- All that the host can read of the block (R23); reading changes nothing (R49). -/
structure HostView where
  ports : List PortView
  keyOut : KeyView
  keyIn : KeyView
  fault : BitVec 16
  fcmd : Option CmdWord
  deriving DecidableEq, Repr

def Port.view (p : Port) : PortView :=
  ⟨p.v, p.sb, p.slen, p.status, p.res, p.ib, p.ob, p.olen, p.pkt⟩

def KeyState.view (k : KeyState) : KeyView := ⟨k.ks, k.suite, k.tagLen⟩

def State.hostView (s : State) : HostView :=
  ⟨s.ports.map Port.view, s.keyOut.view, s.keyIn.view, s.fault, s.fcmd⟩

end Sys2Proof.Machine
end

