-- ==== Sys2Proof/Machine/Step.lean ====
section
/-! DEFINITION. One step of the machine: the next action of the host is performed. The block fetches nothing
(spec/10_state.md R28); a command is the word the host writes to CMD (R29). -/

namespace Sys2Proof.Machine

/-- One step. A command word is decoded before any operand is read (R67); a word that is no command raises
IllegalCommand and performs nothing else (R66). -/
def step (s : State) : Host.Outcome State Fault Refusal :=
  match s.nextRequest with
  | .done a => a
  | .command w t =>
    match decode w with
    | .command i => exec i t
    | .rejected _ => .next (t.raiseFault .illegalCommand w)

/-- s with the instruction of an opcode-table row where step takes its next instruction from: the host's write of its
word to CMD of the current port, before everything else the host will do. Log entry 8. -/
def State.withFetchWord (s : State) (nbits w : Nat) : State := s.pushCommand (tableWord nbits w)

end Sys2Proof.Machine
end

