-- ==== Sys2Proof/WellFormed.lean ====
section
/-! DEFINITION. Which terms are well formed. A command has no operand, so every `Instr` is; the checks with content are
the laws a model takes of the parameters (spec/00_scope.md R12). -/

namespace Sys2Proof

/-- No command has an operand field (R64), so there is nothing to check. -/
def Instr.wellFormed : Instr → Bool := fun _ => true

/-- R97: PDL_MAX_MS div PDL_G ≤ 4095. -/
abbrev Params.CeilingFits (P : Params) : Prop := P.pdlMaxMs / P.pdlG ≤ 4095

/-- DEDUCED, log entry 3: the granularity is at least one millisecond, and every decoded field is a signed 32-bit
value (R26, R98). -/
abbrev Params.GranularityFits (P : Params) : Prop := 0 < P.pdlG ∧ 4095 * P.pdlG < 2 ^ 31

/-- R118: NO_TEMPORAL_IDX > 7. -/
abbrev Params.SentinelIsNoLayer (P : Params) : Prop := 7 < P.noTemporalIdx.toNat

/-- DEDUCED, log entry 3: every content type is one byte (R26: content type, 8 bits). -/
abbrev Params.ContentTypeFits (P : Params) : Prop := P.vctCount ≤ 256

/-- R129: exactly four cipher suites. DEDUCED, log entry 3: their tags differ. -/
abbrev Params.SuitesDiffer (P : Params) : Prop := P.suites.length = 4 ∧ (P.suites.map Suite.tag).Nodup

/-- R126: the OHB is its five fields, 11 bytes. -/
abbrev Params.OhbFits (P : Params) : Prop := P.ohbSize = 11

/-- R42: NPORTS ≥ 1. -/
abbrev Params.HasPort (P : Params) : Prop := 1 ≤ P.nports

/-- The laws of the parameters, together. -/
abbrev Params.Lawful (P : Params) : Prop :=
  P.CeilingFits ∧ P.GranularityFits ∧ P.SentinelIsNoLayer ∧ P.ContentTypeFits ∧ P.SuitesDiffer ∧ P.OhbFits ∧
    P.HasPort

end Sys2Proof
end

