-- ==== Sys2Proof/Safety.lean ====
section
/-! DEFINITION. The terms that claims use: a block ready for a command, the ways a command ends, the tables of
spec/60_exceptions.md R139 and R140, what each command may write, the invariant of every run, and the comparisons of two
states. -/

namespace Sys2Proof.Machine

/-- The block is not halted (R142) and p is the state of the port that issues the command (R42). -/
abbrev State.Ready (s : State) (p : Port) : Prop := ¬ s.halted ∧ s.port? = some p

/-- The run is over: a running block with no host action waiting. A halted block is never final (R142). -/
def State.Final (s : State) : Prop := ¬ s.halted ∧ s.inbox = []

/-- The command ends `ok` with the issuing port at p but for STATUS, and nothing else written (R19, R30). -/
abbrev EndsOk (i : Instr) (s : State) (p : Port) : Prop :=
  exec i s = .next (s.setPort { p with status := some 0x00#8 })

/-- The command ends `fail(code)` on the issuing port p: STATUS holds the code and nothing else is written (R19). -/
abbrev EndsFail (i : Instr) (s : State) (p : Port) (code : BitVec 8) : Prop :=
  exec i s = .next (s.setPort { p with status := some code })

/-- The command faults: FAULT holds the given register value, FCMD the command's word, and nothing else is written
(R141). -/
abbrev EndsFault (i : Instr) (s : State) (fault : BitVec 16) : Prop :=
  exec i s = .next { s with fault := fault, fcmd := some (encode i) }

/-- The end of a WRITE whose operands keep the caller contract and whose value has the given size and wire image (R72):
OLEN is read and checked last, and OB takes the wire image. -/
abbrev EndsBySize (i : Instr) (s : State) (p : Port) (size : Nat) (image : List Byte) : Prop :=
  (p.olen = none → EndsFault i s 0x0021#16) ∧
  ∀ n, p.olen = some n →
    (n.toNat ≠ size → EndsFault i s 0x0031#16) ∧ (n.toNat = size → EndsOk i s { p with ob := image })

/-! ## Families of commands -/

/-- The PARSE commands (R61). -/
def parses : List Instr :=
  [.parseAst, .parseAl, .parseToff, .parseTsn, .parseCvo, .parseCvoraw, .parsePdl, .parseVct, .parseVt, .parseRsid,
    .parseRrsid, .parseFm]

/-- Each WRITE command with the VSIZE command of its type (R61). -/
def writeSizePairs : List (Instr × Instr) :=
  [(.writeAst, .vsizeAst), (.writeAl, .vsizeAl), (.writeToff, .vsizeToff), (.writeTsn, .vsizeTsn),
    (.writeCvo, .vsizeCvo), (.writeCvoraw, .vsizeCvoraw), (.writePdl, .vsizePdl), (.writeVct, .vsizeVct),
    (.writeVt, .vsizeVt), (.writeRsid, .vsizeRsid), (.writeRrsid, .vsizeRrsid), (.writeFm, .vsizeFm)]

/-- The VSIZE commands of the fixed-size types with the type's size (R62, R73). -/
def fixedSizes : List (Instr × Nat) :=
  [(.vsizeAst, 3), (.vsizeAl, 1), (.vsizeToff, 3), (.vsizeTsn, 2), (.vsizeCvo, 1), (.vsizeCvoraw, 1), (.vsizePdl, 3),
    (.vsizeVct, 1), (.vsizeVt, 12)]

/-- The fixed-size types of the unrestricted round-trip law (R75), each as its WRITE, its PARSE and the value registers
that hold its value (R26). -/
def roundTripTypes : List (Instr × Instr × List (Fin 8)) :=
  [(.writeAst, .parseAst, [0]), (.writeAl, .parseAl, [0, 1]), (.writeToff, .parseToff, [0]),
    (.writeTsn, .parseTsn, [0]), (.writeCvoraw, .parseCvoraw, [0]), (.writeVct, .parseVct, [0]),
    (.writeVt, .parseVt, [0, 1, 2, 3, 4, 5])]

/-- The direction of a CLASS 1 command: whose key state it uses (R53, R63, R131 to R135). -/
def wrapperDirection : Instr → Option Direction
  | .setkeyOut | .encrypt | .overhead => some .out
  | .setkeyIn | .decrypt => some .inn
  | _ => none

/-! ## The tables of outcomes -/

/-- Which commands may end with a status other than OK: the column "raised by" of R139. -/
def mayFail : StatusCode → Instr → Bool
  | .ok, _ => false
  | .malformedLength, i => i ∈ parses || i == .decrypt
  | .invalidFieldValue, i => i ∈ [.parsePdl, .parseVct, .parseRsid, .parseRrsid]
  | .unsupportedCipherSuite, i | .invalidKeyLength, i | .sessionAlreadyKeyed, i => i ∈ [.setkeyOut, .setkeyIn]
  | .sessionNotKeyed, i => i ∈ [.encrypt, .decrypt]
  | .capacityExceeded, i => i == .encrypt
  | .authenticationFailure, i | .replayFailure, i => i == .decrypt
  | .engineFailure, i => i ∈ [.setkeyOut, .setkeyIn, .encrypt]

/-- Which commands may raise a fault kind: the column "raised by" of R140. -/
def mayRaise : FaultKind → Instr → Bool
  | .illegalCommand, _ => false
  | .unwrittenRead, i =>
    i ∈ writeSizePairs.map Prod.fst
      || i ∈ [.vsizeRsid, .vsizeRrsid, .vsizeFm, .vp9lid, .setkeyOut, .setkeyIn, .encrypt]
  | .contractViolation, i => i ∈ writeSizePairs.map Prod.fst || i == .vp9lid
  | .engineContractViolation, i => i ∈ [.encrypt, .decrypt]

/-! ## What a command may write -/

/-- The value registers a command may write (R25, R26): those of its type, for a PARSE. -/
def writesV : Instr → Fin 8 → Bool
  | .parseAst, j | .parseToff, j | .parseTsn, j | .parseCvo, j | .parseCvoraw, j | .parseVct, j => j == 0
  | .parseAl, j | .parsePdl, j => j == 0 || j == 1
  | .parseVt, j => j.val < 6
  | .parseFm, _ => true
  | _, _ => false

/-- The commands that may write SB and SLEN (R27). -/
def writesStreamId (i : Instr) : Bool := i ∈ [.parseRsid, .parseRrsid]

/-- The commands that may write RES (R31). -/
def writesRES (i : Instr) : Bool := i ∈ writeSizePairs.map Prod.snd || i ∈ [.vp9lid, .overhead]

/-- The commands that may write OB (R37). -/
def writesOB (i : Instr) : Bool := i ∈ writeSizePairs.map Prod.fst

/-- The commands that may write the key-state registers of a direction, SESS included (R33, R34, R131 to R134). -/
def writesKey : Instr → Direction → Bool
  | .setkeyOut, .out | .encrypt, .out | .setkeyIn, .inn | .decrypt, .inn => true
  | _, _ => false

/-- What a command leaves as it was on the issuing port: p before, q after (R26, R27, R31, R36 to R38, R71 to R73). -/
structure PortFrame (i : Instr) (p q : Port) : Prop where
  v : ∀ j, writesV i j = false → q.v.get j = p.v.get j
  sb : writesStreamId i = false → q.sb = p.sb
  slen : writesStreamId i = false → q.slen = p.slen
  res : writesRES i = false → q.res = p.res
  ib : i ≠ .decrypt → q.ib = p.ib
  ob : writesOB i = false → q.ob = p.ob
  pay : i ≠ .encrypt → q.pkt.pay = p.pkt.pay
  pktOther : q.pkt = { p.pkt with pay := q.pkt.pay }
  olen : q.olen = p.olen
  cmd : q.cmd = p.cmd

/-! ## The invariant of every run -/

/-- The key state of a direction is as R34 says: with KS = 0 the three other registers hold no value; with KS = 1 there
is a session, and SUITE and TAGLEN are those of one row of SUITES (R131). -/
def KeyState.Valid (P : Params) (k : KeyState) : Prop :=
  (k.ks = false ∧ k.suite = none ∧ k.tagLen = none ∧ k.sess = none) ∨
  (k.ks = true ∧ k.sess.isSome ∧ ∃ row ∈ P.suites, k.suite = some row.tag ∧ k.tagLen = some row.tagLen)

/-- STATUS holds no value or one of the codes 0 to 10 (R139). -/
def Port.StatusValid (p : Port) : Prop := ∀ x, p.status = some x → x.toNat ≤ 10

/-- FAULT and FCMD are as they are after reset, or as one fault left them: with a kind and a word that fit R140. -/
def State.FaultValid (s : State) : Prop :=
  (s.fault = 0#16 ∧ s.fcmd = none) ∨
  ∃ k w, s.fault = k.register ∧ s.fcmd = some w ∧
    ((k = .illegalCommand ∧ ∀ i, encode i ≠ w) ∨ ∃ i, encode i = w ∧ mayRaise k i = true)

/-- The invariant that every step keeps. -/
structure State.Valid (s : State) : Prop where
  hasPort : 1 ≤ s.params.nports
  ports : s.ports.length = s.params.nports
  cur : s.cur < s.ports.length
  status : ∀ p ∈ s.ports, p.StatusValid
  keyOut : s.keyOut.Valid s.params
  keyIn : s.keyIn.Valid s.params
  fault : s.FaultValid

/-! ## Comparing two states -/

/-- The spec's own state is the same; the model's own fields do not count. -/
def State.SameBlock (s t : State) : Prop :=
  s.ports = t.ports ∧ s.keyOut = t.keyOut ∧ s.keyIn = t.keyIn ∧ s.fault = t.fault ∧ s.fcmd = t.fcmd

/-- Two states that differ at most in what the host cannot read: in what is inside SESS and in CMD (R29, R33, R40). The
inputs still to come are the same. -/
structure State.LooksLike (s t : State) : Prop where
  view : s.hostView = t.hostView
  sessOut : s.keyOut.sess.isSome = t.keyOut.sess.isSome
  sessIn : s.keyIn.sess.isSome = t.keyIn.sess.isSome
  params : s.params = t.params
  cur : s.cur = t.cur
  draw : s.draw = t.draw
  inbox : s.inbox = t.inbox

end Sys2Proof.Machine
end

