-- ==== Sys2Proof/Certificates/Slice0/Obligations.lean ====
section
/-! DEFINITION. The statements for the provers. Values of STATUS and FAULT are written as the numbers of
spec/60_exceptions.md R139 and R140: FAULT 0x0011 IllegalCommand, 0x0021 UnwrittenRead, 0x0031 ContractViolation, 0x0041
EngineContractViolation. -/

open Sys2Proof Sys2Proof.Machine

/-! ## Encoding -/

/-- R65: words of every class and operation, written out from the table, decode to their commands. -/
def Obligations.SampleWordsDecode : Prop :=
  decode 0b0000_0000_0000_0001#16 = .command .parseAst ∧ decode 0b0000_0001_0000_1100#16 = .command .writeFm ∧
  decode 0b0000_0010_0000_1001#16 = .command .vsizeVt ∧ decode 0b0000_0011_0000_1100#16 = .command .vp9lid ∧
  decode 0b0001_0000_0000_0001#16 = .command .setkeyIn ∧ decode 0b0001_0001_0000_0000#16 = .command .encrypt ∧
  decode 0b0001_0010_0000_0000#16 = .command .decrypt ∧ decode 0b0001_0011_0000_0000#16 = .command .overhead

/-- R65: the 42 legal command words with their commands; no other word is a command. -/
def Obligations.LegalWordsAreTheTable : Prop :=
  ∀ (w : CmdWord) (i : Instr), decode w = .command i ↔ (w, i) ∈
    [(0x0001#16, .parseAst), (0x0002#16, .parseAl), (0x0003#16, .parseToff), (0x0004#16, .parseTsn),
     (0x0005#16, .parseCvo), (0x0006#16, .parseCvoraw), (0x0007#16, .parsePdl), (0x0008#16, .parseVct),
     (0x0009#16, .parseVt), (0x000A#16, .parseRsid), (0x000B#16, .parseRrsid), (0x000C#16, .parseFm),
     (0x0101#16, .writeAst), (0x0102#16, .writeAl), (0x0103#16, .writeToff), (0x0104#16, .writeTsn),
     (0x0105#16, .writeCvo), (0x0106#16, .writeCvoraw), (0x0107#16, .writePdl), (0x0108#16, .writeVct),
     (0x0109#16, .writeVt), (0x010A#16, .writeRsid), (0x010B#16, .writeRrsid), (0x010C#16, .writeFm),
     (0x0201#16, .vsizeAst), (0x0202#16, .vsizeAl), (0x0203#16, .vsizeToff), (0x0204#16, .vsizeTsn),
     (0x0205#16, .vsizeCvo), (0x0206#16, .vsizeCvoraw), (0x0207#16, .vsizePdl), (0x0208#16, .vsizeVct),
     (0x0209#16, .vsizeVt), (0x020A#16, .vsizeRsid), (0x020B#16, .vsizeRrsid), (0x020C#16, .vsizeFm),
     (0x030C#16, .vp9lid), (0x1000#16, .setkeyOut), (0x1001#16, .setkeyIn), (0x1100#16, .encrypt),
     (0x1200#16, .decrypt), (0x1300#16, .overhead)]

/-- R65, R67: a word decodes to a command exactly when it is that command's word. -/
def Obligations.DecodeAndEncodeAgree : Prop :=
  ∀ (w : CmdWord) (i : Instr), decode w = .command i ↔ encode i = w

/-! ## Steps, halting, reset -/

/-- A step at which the host writes a command's word to CMD of a port of a running block is that command, with the port
as the issuing one and the engine's answer given. -/
def Obligations.StepRunsTheDecodedCommand : Prop :=
  ∀ (s : State) (n : Nat) (w : CmdWord) (draw : EngineDraw) (rest : List HostAction) (i : Instr),
    s.inbox = .writeCMD n w draw :: rest → n < s.ports.length → ¬ s.halted → decode w = .command i →
    step s = exec i
      { s with
        inbox := rest, cur := n, draw := draw, ports := s.ports.modify n fun p => { p with cmd := w } }

/-- R66: a word that is no command raises IllegalCommand and performs nothing else. -/
def Obligations.IllegalWordRaisesIllegalCommand : Prop :=
  ∀ (s : State) (n : Nat) (w : CmdWord) (draw : EngineDraw) (rest : List HostAction),
    s.inbox = .writeCMD n w draw :: rest → n < s.ports.length → ¬ s.halted → (∀ i, encode i ≠ w) →
    step s = .next
      { s with
        inbox := rest, cur := n, draw := draw, ports := s.ports.modify n fun p => { p with cmd := w }
        fault := 0x0011#16, fcmd := some w }

/-- R142: while FLT = 1 no step is possible and the block is not final; only a reset clears FLT, and what the host does
before it performs nothing. That the model stops with a fault of its own where no step is possible, and passes over the
actions before a reset, is its reading, log entry 10. -/
def Obligations.HaltedBlockDoesNothingUntilReset : Prop :=
  ∀ s : State, s.halted →
    (∀ i, exec i s = .fault .halted) ∧
    (HostAction.reset ∉ s.inbox → step s = .fault .halted) ∧
    (∀ before rest, HostAction.reset ∉ before → s.inbox = before ++ .reset :: rest →
      step s = step { s with inbox := .reset :: rest }) ∧
    (∀ t, step s = .next t → ¬ t.halted) ∧
    ¬ s.Final

/-- On a running block each host write changes the one register or buffer it names, of the port it names; with no action
waiting nothing happens. Host writes as steps and the step for an empty inbox are the model's choice, log entry 8, and so
is the write of SB one byte at a time, log entry 17. -/
def Obligations.HostWritesOneRegister : Prop :=
  ∀ s : State, ¬ s.halted →
    (s.inbox = [] → step s = .next s) ∧
    ∀ (n : Nat) (p : Port) (rest : List HostAction), s.ports[n]? = some p →
      (∀ i x, s.inbox = .writeV n i x :: rest →
        step s = .next { s with inbox := rest, ports := s.ports.set n { p with v := p.v.set i (some x) } }) ∧
      (∀ i b, s.inbox = .writeSB n i b :: rest →
        step s = .next { s with inbox := rest, ports := s.ports.set n { p with sb := p.sb.set i (some b) } }) ∧
      (∀ x, s.inbox = .writeSLEN n x :: rest →
        step s = .next { s with inbox := rest, ports := s.ports.set n { p with slen := some x } }) ∧
      (∀ bytes, s.inbox = .writeIB n bytes :: rest →
        step s = .next { s with inbox := rest, ports := s.ports.set n { p with ib := bytes } }) ∧
      (∀ x, s.inbox = .writeOLEN n x :: rest →
        step s = .next { s with inbox := rest, ports := s.ports.set n { p with olen := some x } }) ∧
      (∀ x, s.inbox = .writeM n x :: rest →
        step s = .next { s with inbox := rest, ports := s.ports.set n { p with pkt := { p.pkt with m := some x } } }) ∧
      (∀ x, s.inbox = .writePT n x :: rest →
        step s = .next { s with inbox := rest, ports := s.ports.set n { p with pkt := { p.pkt with pt := some x } } }) ∧
      (∀ x, s.inbox = .writeSEQ n x :: rest →
        step s = .next
          { s with inbox := rest, ports := s.ports.set n { p with pkt := { p.pkt with seq := some x } } }) ∧
      (∀ x, s.inbox = .writeTS n x :: rest →
        step s = .next { s with inbox := rest, ports := s.ports.set n { p with pkt := { p.pkt with ts := some x } } }) ∧
      (∀ x, s.inbox = .writeSSRC n x :: rest →
        step s = .next
          { s with inbox := rest, ports := s.ports.set n { p with pkt := { p.pkt with ssrc := some x } } }) ∧
      (∀ bytes, s.inbox = .writePAY n bytes :: rest →
        step s = .next
          { s with inbox := rest, ports := s.ports.set n { p with pkt := { p.pkt with pay := some bytes } } }) ∧
      (∀ x, s.inbox = .writeCAP n x :: rest →
        step s = .next
          { s with inbox := rest, ports := s.ports.set n { p with pkt := { p.pkt with cap := some x } } })

/-- On a running block a CMD write on a port the block does not have is refused by name. The refusal is the
model's choice, log entry 9. -/
def Obligations.CommandOnAbsentPortIsRefused : Prop :=
  ∀ (s : State) (n : Nat) (w : CmdWord) (draw : EngineDraw) (rest : List HostAction),
    s.inbox = .writeCMD n w draw :: rest → ¬ s.halted → s.ports.length ≤ n → step s = .refused .noSuchPort

/-- R155: reset asks destroy of the session of each keyed direction, OUT before IN, and sets every piece of state to its
reset value. The order of the two questions and the model's own fields are the model's choice, log entry 20; so is the value
0x0000 of CMD in `Port.reset`, to which the spec gives no reset value, log entry 11. -/
def Obligations.ResetDestroysSessionsAndClears : Prop :=
  ∀ (s : State) (rest : List HostAction), s.inbox = .reset :: rest →
    step s = .next
      { ports := List.replicate s.params.nports Port.reset
        keyOut := ⟨false, none, none, none⟩
        keyIn := ⟨false, none, none, none⟩
        fault := 0x0000#16
        fcmd := none
        params := s.params
        cur := 0
        draw := s.draw
        asked := s.asked
          ++ (if s.keyOut.ks then s.keyOut.sess.toList.map .destroy else [])
          ++ (if s.keyIn.ks then s.keyIn.sess.toList.map .destroy else [])
        inbox := rest }

/-- R156: the values after reset. -/
def Obligations.ResetValues : Prop :=
  (∀ p ∈ State.reset.ports,
    (∀ j, p.v.get j = none) ∧ (∀ k, p.sb.get k = none) ∧ p.slen = none ∧ p.status = none ∧ p.res = none ∧
    p.ib = [] ∧ p.ob = [] ∧ p.olen = none ∧
    p.pkt.m = none ∧ p.pkt.pt = none ∧ p.pkt.seq = none ∧ p.pkt.ts = none ∧ p.pkt.ssrc = none ∧ p.pkt.pay = none ∧
    p.pkt.cap = none) ∧
  State.reset.fault = 0x0000#16 ∧ State.reset.fcmd = none ∧
  ∀ d, (State.reset.key d).ks = false ∧ (State.reset.key d).suite = none ∧ (State.reset.key d).tagLen = none ∧
    (State.reset.key d).sess = none

/-! ## PARSE -/

/-- R76. -/
def Obligations.ParseAstReadsBigEndian24 : Prop :=
  ∀ (s : State) (p : Port), s.Ready p →
    (∀ a b c : Byte, p.ib = [a, b, c] →
      EndsOk .parseAst s (p.setV 0 (BitVec.ofNat 32 (a.toNat * 65536 + b.toNat * 256 + c.toNat)))) ∧
    (p.ib.length ≠ 3 → EndsFail .parseAst s p 1#8)

/-- R80. -/
def Obligations.ParseAlSplitsFlagAndLevel : Prop :=
  ∀ (s : State) (p : Port), s.Ready p →
    (∀ b : Byte, p.ib = [b] →
      EndsOk .parseAl s
        ((p.setV 0 (BitVec.ofNat 32 (b.toNat / 128))).setV 1 (BitVec.ofNat 32 (b.toNat % 128)))) ∧
    (p.ib.length ≠ 1 → EndsFail .parseAl s p 1#8)

/-- R83: the 24-bit number is read as two's complement. -/
def Obligations.ParseToffSignExtends : Prop :=
  ∀ (s : State) (p : Port), s.Ready p →
    (∀ a b c : Byte, p.ib = [a, b, c] →
      EndsOk .parseToff s (p.setV 0 (BitVec.ofInt 32
        ((a.toNat * 65536 + b.toNat * 256 + c.toNat : Nat) - (if 128 ≤ a.toNat then 16777216 else 0) : Int)))) ∧
    (p.ib.length ≠ 3 → EndsFail .parseToff s p 1#8)

/-- R86. -/
def Obligations.ParseTsnReadsBigEndian16 : Prop :=
  ∀ (s : State) (p : Port), s.Ready p →
    (∀ a b : Byte, p.ib = [a, b] →
      EndsOk .parseTsn s (p.setV 0 (BitVec.ofNat 32 (a.toNat * 256 + b.toNat)))) ∧
    (p.ib.length ≠ 2 → EndsFail .parseTsn s p 1#8)

/-- R90, for every conversion CVO_TO_ROT. -/
def Obligations.ParseCvoConvertsToRotation : Prop :=
  ∀ (s : State) (p : Port), s.Ready p →
    (∀ b : Byte, p.ib = [b] →
      EndsOk .parseCvo s (p.setV 0 (BitVec.ofNat 32 (s.params.rotationOf b).toNat))) ∧
    (p.ib.length ≠ 1 → EndsFail .parseCvo s p 1#8)

/-- R93. -/
def Obligations.ParseCvorawPassesTheByte : Prop :=
  ∀ (s : State) (p : Port), s.Ready p →
    (∀ b : Byte, p.ib = [b] → EndsOk .parseCvoraw s (p.setV 0 (BitVec.ofNat 32 b.toNat))) ∧
    (p.ib.length ≠ 1 → EndsFail .parseCvoraw s p 1#8)

/-- R98, with the layout of R96. -/
def Obligations.ParsePdlChecksAndExpands : Prop :=
  ∀ (s : State) (p : Port), s.Ready p →
    (∀ a b c : Byte, p.ib = [a, b, c] → ∀ minRaw maxRaw : Nat,
      minRaw = a.toNat * 16 + b.toNat / 16 → maxRaw = b.toNat % 16 * 256 + c.toNat →
      (maxRaw < minRaw → EndsFail .parsePdl s p 2#8) ∧
      (minRaw ≤ maxRaw →
        EndsOk .parsePdl s
          ((p.setV 0 (BitVec.ofNat 32 (minRaw * s.params.pdlG))).setV 1
            (BitVec.ofNat 32 (maxRaw * s.params.pdlG))))) ∧
    (p.ib.length ≠ 3 → EndsFail .parsePdl s p 1#8)

/-- R102. -/
def Obligations.ParseVctChecksTheCount : Prop :=
  ∀ (s : State) (p : Port), s.Ready p →
    (∀ b : Byte, p.ib = [b] →
      (s.params.vctCount ≤ b.toNat → EndsFail .parseVct s p 2#8) ∧
      (b.toNat < s.params.vctCount → EndsOk .parseVct s (p.setV 0 (BitVec.ofNat 32 b.toNat)))) ∧
    (p.ib.length ≠ 1 → EndsFail .parseVct s p 1#8)

/-- R106. -/
def Obligations.ParseVtReadsSixDeltas : Prop :=
  ∀ (s : State) (p : Port), s.Ready p →
    (∀ a0 b0 a1 b1 a2 b2 a3 b3 a4 b4 a5 b5 : Byte, p.ib = [a0, b0, a1, b1, a2, b2, a3, b3, a4, b4, a5, b5] →
      EndsOk .parseVt s
        ((((((p.setV 0 (BitVec.ofNat 32 (a0.toNat * 256 + b0.toNat))).setV 1
          (BitVec.ofNat 32 (a1.toNat * 256 + b1.toNat))).setV 2
          (BitVec.ofNat 32 (a2.toNat * 256 + b2.toNat))).setV 3
          (BitVec.ofNat 32 (a3.toNat * 256 + b3.toNat))).setV 4
          (BitVec.ofNat 32 (a4.toNat * 256 + b4.toNat))).setV 5
          (BitVec.ofNat 32 (a5.toNat * 256 + b5.toNat)))) ∧
    (p.ib.length ≠ 12 → EndsFail .parseVt s p 1#8)

/-- R111, R114, with RSID_MAX, whose value is 16, for the 16 of the pseudocode (R12, R109). -/
def Obligations.ParseStreamIdLoadsTheBytes : Prop :=
  ∀ i ∈ [Instr.parseRsid, Instr.parseRrsid], ∀ (s : State) (p : Port), s.Ready p →
    (s.params.rsidMax.val < p.ib.length → EndsFail i s p 1#8) ∧
    (p.ib = [] → EndsFail i s p 2#8) ∧
    (∀ b rest, p.ib = b :: rest → p.ib.length ≤ s.params.rsidMax.val →
      (b = 0x00#8 → EndsFail i s p 2#8) ∧
      (b ≠ 0x00#8 → ∃ sb,
        (∀ k : Fin 16, sb.get k = if k.val < p.ib.length then p.ib[k.val]? else p.sb.get k) ∧
        EndsOk i s { p with sb := sb, slen := some (BitVec.ofNat 5 p.ib.length) }))

/-- R121, with the layout of R120. -/
def Obligations.ParseFmReadsOneOrThreeBytes : Prop :=
  ∀ (s : State) (p : Port), s.Ready p →
    (∀ b0 : Byte, p.ib = [b0] →
      EndsOk .parseFm s
        { p with
          v := #v[some (BitVec.ofNat 32 (b0.toNat / 128)), some (BitVec.ofNat 32 (b0.toNat / 64 % 2)),
            some (BitVec.ofNat 32 (b0.toNat / 32 % 2)), some (BitVec.ofNat 32 (b0.toNat / 16 % 2)),
            some 0#32, some 0#32, some 0#32, some 0#32] }) ∧
    (∀ b0 b1 b2 : Byte, p.ib = [b0, b1, b2] →
      EndsOk .parseFm s
        { p with
          v := #v[some (BitVec.ofNat 32 (b0.toNat / 128)), some (BitVec.ofNat 32 (b0.toNat / 64 % 2)),
            some (BitVec.ofNat 32 (b0.toNat / 32 % 2)), some (BitVec.ofNat 32 (b0.toNat / 16 % 2)),
            some (BitVec.ofNat 32 (b0.toNat / 8 % 2)), some (BitVec.ofNat 32 (b0.toNat % 8)),
            some (BitVec.ofNat 32 b1.toNat), some (BitVec.ofNat 32 b2.toNat)] }) ∧
    (p.ib.length ≠ 1 → p.ib.length ≠ 3 → EndsFail .parseFm s p 1#8)

/-! ## WRITE -/

/-- R77. -/
def Obligations.WriteAstEmitsBigEndian24 : Prop :=
  ∀ (s : State) (p : Port), s.Ready p →
    (p.v.get 0 = none → EndsFault .writeAst s 0x0021#16) ∧
    ∀ t, p.v.get 0 = some t →
      (0x00FFFFFF < t.toNat → EndsFault .writeAst s 0x0031#16) ∧
      (t.toNat ≤ 0x00FFFFFF →
        EndsBySize .writeAst s p 3 [t.extractLsb' 16 8, t.extractLsb' 8 8, t.extractLsb' 0 8])

/-- R81. -/
def Obligations.WriteAlPacksFlagAndLevel : Prop :=
  ∀ (s : State) (p : Port), s.Ready p →
    ((p.v.get 0 = none ∨ p.v.get 1 = none) → EndsFault .writeAl s 0x0021#16) ∧
    ∀ va lv, p.v.get 0 = some va → p.v.get 1 = some lv →
      ((1 < va.toNat ∨ 127 < lv.toNat) → EndsFault .writeAl s 0x0031#16) ∧
      (va.toNat ≤ 1 → lv.toNat ≤ 127 → EndsBySize .writeAl s p 1 [BitVec.ofNat 8 (va.toNat * 128 + lv.toNat)])

/-- R84. -/
def Obligations.WriteToffEmitsTwosComplement24 : Prop :=
  ∀ (s : State) (p : Port), s.Ready p →
    (p.v.get 0 = none → EndsFault .writeToff s 0x0021#16) ∧
    ∀ o, p.v.get 0 = some o →
      ((o.toInt < -8388608 ∨ 8388607 < o.toInt) → EndsFault .writeToff s 0x0031#16) ∧
      (-8388608 ≤ o.toInt → o.toInt ≤ 8388607 →
        EndsBySize .writeToff s p 3 [o.extractLsb' 16 8, o.extractLsb' 8 8, o.extractLsb' 0 8])

/-- R87. -/
def Obligations.WriteTsnEmitsBigEndian16 : Prop :=
  ∀ (s : State) (p : Port), s.Ready p →
    (p.v.get 0 = none → EndsFault .writeTsn s 0x0021#16) ∧
    ∀ n, p.v.get 0 = some n →
      (0xFFFF < n.toNat → EndsFault .writeTsn s 0x0031#16) ∧
      (n.toNat ≤ 0xFFFF → EndsBySize .writeTsn s p 2 [n.extractLsb' 8 8, n.extractLsb' 0 8])

/-- R91, for every conversion ROT_TO_CVO. -/
def Obligations.WriteCvoConvertsFromRotation : Prop :=
  ∀ (s : State) (p : Port), s.Ready p →
    (p.v.get 0 = none → EndsFault .writeCvo s 0x0021#16) ∧
    ∀ r, p.v.get 0 = some r →
      (3 < r.toNat → EndsFault .writeCvo s 0x0031#16) ∧
      (r.toNat ≤ 3 → EndsBySize .writeCvo s p 1 [s.params.cvoOf (r.extractLsb' 0 2)])

/-- R94. -/
def Obligations.WriteCvorawPassesTheByte : Prop :=
  ∀ (s : State) (p : Port), s.Ready p →
    (p.v.get 0 = none → EndsFault .writeCvoraw s 0x0021#16) ∧
    ∀ b, p.v.get 0 = some b →
      (0xFF < b.toNat → EndsFault .writeCvoraw s 0x0031#16) ∧
      (b.toNat ≤ 0xFF → EndsBySize .writeCvoraw s p 1 [b.extractLsb' 0 8])

/-- R99, with the layout of R96 and the law of the parameters that R97 states. -/
def Obligations.WritePdlQuantises : Prop :=
  ∀ (s : State) (p : Port), s.Ready p → s.params.CeilingFits →
    ((p.v.get 0 = none ∨ p.v.get 1 = none) → EndsFault .writePdl s 0x0021#16) ∧
    ∀ mn mx, p.v.get 0 = some mn → p.v.get 1 = some mx →
      ((mn.toInt < 0 ∨ mx.toInt < mn.toInt ∨ s.params.pdlMaxMs < mx.toInt) → EndsFault .writePdl s 0x0031#16) ∧
      (0 ≤ mn.toInt → mn.toInt ≤ mx.toInt → mx.toInt ≤ s.params.pdlMaxMs → ∀ minRaw maxRaw : Nat,
        minRaw = mn.toNat / s.params.pdlG → maxRaw = mx.toNat / s.params.pdlG →
        EndsBySize .writePdl s p 3
          [BitVec.ofNat 8 (minRaw / 16), BitVec.ofNat 8 (minRaw % 16 * 16 + maxRaw / 256),
            BitVec.ofNat 8 (maxRaw % 256)])

/-- R103. -/
def Obligations.WriteVctEmitsTheByte : Prop :=
  ∀ (s : State) (p : Port), s.Ready p →
    (p.v.get 0 = none → EndsFault .writeVct s 0x0021#16) ∧
    ∀ c, p.v.get 0 = some c →
      (s.params.vctCount ≤ c.toNat → EndsFault .writeVct s 0x0031#16) ∧
      (c.toNat < s.params.vctCount → EndsBySize .writeVct s p 1 [c.extractLsb' 0 8])

/-- R107. -/
def Obligations.WriteVtEmitsSixDeltas : Prop :=
  ∀ (s : State) (p : Port), s.Ready p →
    ((∃ j : Fin 8, j.val < 6 ∧ p.v.get j = none) → EndsFault .writeVt s 0x0021#16) ∧
    ∀ d0 d1 d2 d3 d4 d5, p.v.get 0 = some d0 → p.v.get 1 = some d1 → p.v.get 2 = some d2 → p.v.get 3 = some d3 →
      p.v.get 4 = some d4 → p.v.get 5 = some d5 →
      ((∃ d ∈ [d0, d1, d2, d3, d4, d5], 0xFFFF < d.toNat) → EndsFault .writeVt s 0x0031#16) ∧
      ((∀ d ∈ [d0, d1, d2, d3, d4, d5], d.toNat ≤ 0xFFFF) →
        EndsBySize .writeVt s p 12
          [d0.extractLsb' 8 8, d0.extractLsb' 0 8, d1.extractLsb' 8 8, d1.extractLsb' 0 8,
            d2.extractLsb' 8 8, d2.extractLsb' 0 8, d3.extractLsb' 8 8, d3.extractLsb' 0 8,
            d4.extractLsb' 8 8, d4.extractLsb' 0 8, d5.extractLsb' 8 8, d5.extractLsb' 0 8])

/-- R112, R115, with RSID_MAX, whose value is 16, for the 16 of the pseudocode (R12, R109). -/
def Obligations.WriteStreamIdEmitsTheBytes : Prop :=
  ∀ i ∈ [Instr.writeRsid, Instr.writeRrsid], ∀ (s : State) (p : Port), s.Ready p →
    (p.slen = none → EndsFault i s 0x0021#16) ∧
    ∀ n, p.slen = some n →
      ((n.toNat = 0 ∨ s.params.rsidMax.val < n.toNat) → EndsFault i s 0x0031#16) ∧
      (n.toNat ≠ 0 → n.toNat ≤ s.params.rsidMax.val →
        ((∃ k : Fin 16, k.val < n.toNat ∧ p.sb.get k = none) → EndsFault i s 0x0021#16) ∧
        ∀ b rest, (b :: rest).length = n.toNat → (∀ k : Fin 16, k.val < n.toNat → p.sb.get k = (b :: rest)[k.val]?) →
          (b = 0x00#8 → EndsFault i s 0x0031#16) ∧
          (b ≠ 0x00#8 → EndsBySize i s p n.toNat (b :: rest)))

/-- R122, with the predicate of R119 and the layout of R120. -/
def Obligations.WriteFmEmitsOneOrThreeBytes : Prop :=
  ∀ (s : State) (p : Port), s.Ready p →
    ((∃ j, p.v.get j = none) → EndsFault .writeFm s 0x0021#16) ∧
    ∀ st e i d bs tid lid tl0, p.v = #v[some st, some e, some i, some d, some bs, some tid, some lid, some tl0] →
      (((∃ f ∈ [st, e, i, d, bs], 1 < f.toNat) ∨ (7 < tid.toNat ∧ tid.toNat ≠ s.params.noTemporalIdx.toNat) ∨
          0xFF < lid.toNat ∨ 0xFF < tl0.toNat) → EndsFault .writeFm s 0x0031#16) ∧
      ((∀ f ∈ [st, e, i, d, bs], f.toNat ≤ 1) → (tid.toNat ≤ 7 ∨ tid.toNat = s.params.noTemporalIdx.toNat) →
        lid.toNat ≤ 0xFF → tl0.toNat ≤ 0xFF →
        ∀ flags : Nat, flags = st.toNat * 128 + e.toNat * 64 + i.toNat * 32 + d.toNat * 16 →
        ∀ isScalable : Prop, (isScalable ↔ bs.toNat ≠ 0 ∨
            (tid.toNat ≠ 0 ∧ tid.toNat ≠ s.params.noTemporalIdx.toNat) ∨
            (lid.toNat ≠ 0 ∧ lid.toNat ≠ s.params.noSpatialIdx.toNat) ∨
            (tl0.toNat ≠ 0 ∧ tl0.toNat ≠ s.params.noTl0PicIdx.toNat)) →
        (isScalable →
          EndsBySize .writeFm s p 3
            [BitVec.ofNat 8 (flags + bs.toNat * 8 + tid.toNat % 8), lid.extractLsb' 0 8, tl0.extractLsb' 0 8]) ∧
        (¬ isScalable → EndsBySize .writeFm s p 1 [BitVec.ofNat 8 flags]))

/-! ## VSIZE and VP9LID -/

/-- R73, R78, R82, R85, R88, R92, R95, R100, R104, R108: RES takes the type's constant and nothing is read. -/
def Obligations.VsizeOfFixedTypes : Prop :=
  ∀ (s : State) (p : Port), s.Ready p → ∀ r ∈ fixedSizes, EndsOk r.1 s { p with res := some (BitVec.ofNat 32 r.2) }

/-- R113, R116: RES takes SLEN unchecked. -/
def Obligations.VsizeStreamIdReportsSlen : Prop :=
  ∀ i ∈ [Instr.vsizeRsid, Instr.vsizeRrsid], ∀ (s : State) (p : Port), s.Ready p →
    (p.slen = none → EndsFault i s 0x0021#16) ∧
    ∀ n, p.slen = some n → EndsOk i s { p with res := some (BitVec.ofNat 32 n.toNat) }

/-- R123: RES takes 3 for a scalable value and 1 for another, unchecked; v[0] to v[3] are not read. -/
def Obligations.VsizeFmReportsOneOrThree : Prop :=
  ∀ (s : State) (p : Port), s.Ready p →
    ((∃ j : Fin 8, 4 ≤ j.val ∧ p.v.get j = none) → EndsFault .vsizeFm s 0x0021#16) ∧
    ∀ bs tid lid tl0, p.v.get 4 = some bs → p.v.get 5 = some tid → p.v.get 6 = some lid → p.v.get 7 = some tl0 →
      ∀ isScalable : Prop, (isScalable ↔ bs.toNat ≠ 0 ∨
          (tid.toNat ≠ 0 ∧ tid.toNat ≠ s.params.noTemporalIdx.toNat) ∨
          (lid.toNat ≠ 0 ∧ lid.toNat ≠ s.params.noSpatialIdx.toNat) ∨
          (tl0.toNat ≠ 0 ∧ tl0.toNat ≠ s.params.noTl0PicIdx.toNat)) →
        (isScalable → EndsOk .vsizeFm s { p with res := some 3#32 }) ∧
        (¬ isScalable → EndsOk .vsizeFm s { p with res := some 1#32 })

/-- R125, for every mapping VP9_LAYER_ID_MAP. -/
def Obligations.Vp9lidWritesTheMappedLayer : Prop :=
  ∀ (s : State) (p : Port), s.Ready p →
    ((p.v.get 0 = none ∨ p.v.get 1 = none ∨ p.v.get 2 = none) → EndsFault .vp9lid s 0x0021#16) ∧
    ∀ sidx tus ipp, p.v.get 0 = some sidx → p.v.get 1 = some tus → p.v.get 2 = some ipp →
      ((0xFF < sidx.toNat ∨ 1 < tus.toNat ∨ 1 < ipp.toNat) → EndsFault .vp9lid s 0x0031#16) ∧
      (sidx.toNat ≤ 0xFF → tus.toNat ≤ 1 → ipp.toNat ≤ 1 →
        EndsOk .vp9lid s
          { p with res := some (BitVec.ofNat 32
              (Config.vp9LayerIdMap (sidx.extractLsb' 0 8) (tus.extractLsb' 0 1) (ipp.extractLsb' 0 1)).toNat) })

/-! ## The wrapper -/

/-- R131, R132, with the premise that no two suites have the same tag, as in the table of R129; log entry 3. -/
def Obligations.SetkeyKeysOneDirection : Prop :=
  ∀ r ∈ [(Instr.setkeyOut, Direction.out), (Instr.setkeyIn, Direction.inn)], ∀ (s : State) (p : Port),
    s.Ready p → (s.params.suites.map Suite.tag).Nodup →
    ((s.key r.2).ks = true → EndsFail r.1 s p 5#8) ∧
    ((s.key r.2).ks = false →
      (p.v.get 0 = none → EndsFault r.1 s 0x0021#16) ∧
      ∀ x, p.v.get 0 = some x →
        ((∀ row ∈ s.params.suites, row.tag.toNat ≠ x.toNat) → EndsFail r.1 s p 3#8) ∧
        ∀ row ∈ s.params.suites, row.tag.toNat = x.toNat →
          (p.ib.length ≠ row.keySaltLen → EndsFail r.1 s p 4#8) ∧
          (p.ib.length = row.keySaltLen → ∀ question,
            question = EngineQuestion.create row.tag r.2 p.ib s.params.replayWindow s.params.allowRepeat →
            (s.draw.create = none →
              exec r.1 s = .next ((s.ask question).setPort { p with status := some 10#8 })) ∧
            ∀ session, s.draw.create = some session →
              exec r.1 s = .next
                (((s.ask question).setKey r.2
                  ⟨true, some row.tag, some row.tagLen, some session⟩).setPort { p with status := some 0#8 })))

/-- R133, with the layouts of R126 and R127: what ENCRYPT checks before it asks the engine, the question it asks, and
what it makes of each answer. -/
def Obligations.EncryptWrapsThePayload : Prop :=
  ∀ (s : State) (p : Port), s.Ready p →
    (s.keyOut.ks = false → EndsFail .encrypt s p 6#8) ∧
    ∀ tagLen session, s.keyOut.ks = true → s.keyOut.tagLen = some tagLen → s.keyOut.sess = some session →
      ((p.pkt.pay = none ∨ p.pkt.cap = none) → EndsFault .encrypt s 0x0021#16) ∧
      (∀ pay cap, p.pkt.pay = some pay → p.pkt.cap = some cap →
        s.params.ohbSize + pay.length + tagLen.toNat ≤ cap.toNat →
        (p.pkt.m = none ∨ p.pkt.pt = none ∨ p.pkt.seq = none ∨ p.pkt.ts = none ∨ p.pkt.ssrc = none) →
        EndsFault .encrypt s 0x0021#16) ∧
      ∀ m pt seq ts ssrc pay cap, p.pkt = ⟨some m, some pt, some seq, some ts, some ssrc, some pay, some cap⟩ →
        (cap.toNat < s.params.ohbSize + pay.length + tagLen.toNat → EndsFail .encrypt s p 7#8) ∧
        (s.params.ohbSize + pay.length + tagLen.toNat ≤ cap.toNat →
          ∀ buf : List Byte,
            buf = [s.params.versionByte, BitVec.ofNat 8 (m.toNat * 128 + pt.toNat),
              seq.extractLsb' 8 8, seq.extractLsb' 0 8,
              ts.extractLsb' 24 8, ts.extractLsb' 16 8, ts.extractLsb' 8 8, ts.extractLsb' 0 8,
              ssrc.extractLsb' 24 8, ssrc.extractLsb' 16 8, ssrc.extractLsb' 8 8, ssrc.extractLsb' 0 8] ++ pay →
            (s.draw.protect = none →
              exec .encrypt s = .next ((s.ask (.protect session buf)).setPort { p with status := some 10#8 })) ∧
            ∀ session' out, s.draw.protect = some (session', out) →
              (out.length ≠ buf.length + tagLen.toNat →
                exec .encrypt s = .next
                  { s.ask (.protect session buf) with fault := 0x0041#16, fcmd := some 0x1100#16 }) ∧
              (out.length = buf.length + tagLen.toNat →
                exec .encrypt s = .next
                  (((s.ask (.protect session buf)).setKey .out { s.keyOut with sess := some session' }).setPort
                    { p with pkt := { p.pkt with pay := some out.tail }, status := some 0#8 })))

/-- R134: what DECRYPT checks before it asks the engine, the question it asks, and what it makes of each answer.
An input of OHB_SIZE + TAGLEN[IN] bytes leaves the cleartext that the engine's answer gives, log entry 23. -/
def Obligations.DecryptUnwrapsThePayload : Prop :=
  ∀ (s : State) (p : Port), s.Ready p →
    (s.keyIn.ks = false → EndsFail .decrypt s p 6#8) ∧
    ∀ tagLen session, s.keyIn.ks = true → s.keyIn.tagLen = some tagLen → s.keyIn.sess = some session →
      (p.ib.length < s.params.ohbSize + tagLen.toNat → EndsFail .decrypt s p 1#8) ∧
      (s.params.ohbSize + tagLen.toNat ≤ p.ib.length →
        ∀ asked, asked = s.ask (.unprotect session (s.params.versionByte :: p.ib)) →
          (s.draw.unprotect = .authFail → exec .decrypt s = .next (asked.setPort { p with status := some 8#8 })) ∧
          (s.draw.unprotect = .replayFail → exec .decrypt s = .next (asked.setPort { p with status := some 9#8 })) ∧
          ∀ session' out, s.draw.unprotect = .done session' out →
            ((out.length < 1 + s.params.ohbSize ∨ p.ib.length + 1 < out.length) →
              exec .decrypt s = .next { asked with fault := 0x0041#16, fcmd := some 0x1200#16 }) ∧
            (1 + s.params.ohbSize ≤ out.length → out.length ≤ p.ib.length + 1 →
              exec .decrypt s = .next
                ((asked.setKey .inn { s.keyIn with sess := some session' }).setPort
                  { p with ib := out.drop (1 + s.params.ohbSize), status := some 0#8 })))

/-- R135. -/
def Obligations.OverheadReportsTheOutDirection : Prop :=
  ∀ (s : State) (p : Port), s.Ready p →
    (s.keyOut.ks = false → EndsOk .overhead s { p with res := some 0#32 }) ∧
    ∀ tagLen, s.keyOut.ks = true → s.keyOut.tagLen = some tagLen →
      EndsOk .overhead s { p with res := some (BitVec.ofNat 32 (s.params.ohbSize + tagLen.toNat)) }

/-- R137, with the premise its derivation uses: the engine leaves the version byte as the first byte of what it returns,
so that the buffer DECRYPT builds is the one `protect` returned. Log entry 14. OHB_SIZE is the 11 bytes of R126. -/
def Obligations.WrapperRoundTrip : Prop :=
  ∀ (s t u : State) (p q : Port) (pay loaded out buf : List Byte) (sOut sOut' sIn sIn' : Session),
    s.params.OhbFits → s.Ready p → p.pkt.pay = some pay → s.keyOut.sess = some sOut →
    s.keyIn.ks = true → s.keyIn.tagLen = s.keyOut.tagLen → s.keyIn.sess = some sIn →
    exec .encrypt s = .next t → t.port? = some q → q.status = some 0#8 → ¬ t.halted →
    t.asked = s.asked ++ [.protect sOut buf] → s.draw.protect = some (sOut', out) →
    out.head? = some s.params.versionByte →
    q.pkt.pay = some loaded →
    u = { t with draw := { t.draw with unprotect := .done sIn' buf } }.setPort { q with ib := loaded } →
    ∃ r, exec .decrypt u = .next ((({ u with asked := u.asked ++ [.unprotect sIn out] } : State).setKey .inn
        { s.keyIn with sess := some sIn' }).setPort r) ∧ r.ib = pay ∧ r.status = some 0#8

/-! ## Laws of the codecs -/

/-- R89's default conversion, and its inverse law. The default is general knowledge, log entry 2. -/
def Obligations.DefaultRotationConversion : Prop :=
  (∀ b : Byte, Params.spec.rotationOf b = b.extractLsb' 0 2) ∧
  (∀ r : BitVec 2, Params.spec.cvoOf r = BitVec.ofNat 8 r.toNat) ∧
  ∀ r : BitVec 2, Params.spec.rotationOf (Params.spec.cvoOf r) = r

/-- R74: what a WRITE that ends ok wrote is as long as VSIZE says for the same value. -/
def Obligations.SizeLaw : Prop :=
  ∀ r ∈ writeSizePairs, ∀ (s t : State) (p q : Port), s.Ready p → exec r.1 s = .next t → ¬ t.halted →
    t.port? = some q → EndsOk r.2 s { p with res := some (BitVec.ofNat 32 q.ob.length) }

/-- R75, the types with the unrestricted law: after a WRITE that ends ok, with any other value in the value registers and
IB loaded with the bytes written, PARSE ends ok and brings the written value back. -/
def Obligations.RoundTripOfFixedTypes : Prop :=
  ∀ r ∈ roundTripTypes, ∀ (s t : State) (p q : Port) (other : Vector (Option Word) 8),
    s.Ready p → s.params.ContentTypeFits →
    exec r.1 s = .next t → ¬ t.halted → t.port? = some q →
    ∃ b, EndsOk r.2.1 (t.setPort { q with ib := q.ob, v := other }) b ∧ ∀ j ∈ r.2.2, b.v.get j = p.v.get j

/-- R75 for PlayoutDelayLimits: the value comes back exactly when both fields are multiples of PDL_G. -/
def Obligations.RoundTripOfPlayoutDelay : Prop :=
  ∀ (s t : State) (p q : Port) (other : Vector (Option Word) 8) (mn mx : Word), s.Ready p →
    s.params.CeilingFits → s.params.GranularityFits →
    p.v.get 0 = some mn → p.v.get 1 = some mx →
    exec .writePdl s = .next t → ¬ t.halted → t.port? = some q →
    ∃ b, EndsOk .parsePdl (t.setPort { q with ib := q.ob, v := other }) b ∧
      ((b.v.get 0 = some mn ∧ b.v.get 1 = some mx) ↔ (s.params.pdlG ∣ mn.toNat ∧ s.params.pdlG ∣ mx.toNat))

/-- R75 for VideoOrientation in rotation form: the value comes back when the conversion has the inverse law. -/
def Obligations.RoundTripOfRotation : Prop :=
  ∀ (s t : State) (p q : Port) (other : Vector (Option Word) 8), s.Ready p →
    (∀ r, s.params.rotationOf (s.params.cvoOf r) = r) →
    exec .writeCvo s = .next t → ¬ t.halted → t.port? = some q →
    ∃ b, EndsOk .parseCvo (t.setPort { q with ib := q.ob, v := other }) b ∧ b.v.get 0 = p.v.get 0

/-- R124: what comes back of a FrameMarking value, in each of its cases. -/
def Obligations.RoundTripOfFrameMarking : Prop :=
  ∀ (s t : State) (p q : Port) (other : Vector (Option Word) 8) (st e i d bs tid lid tl0 : Word),
    s.Ready p → p.v = #v[some st, some e, some i, some d, some bs, some tid, some lid, some tl0] →
    exec .writeFm s = .next t → ¬ t.halted → t.port? = some q →
    ∃ b, EndsOk .parseFm (t.setPort { q with ib := q.ob, v := other }) b ∧
      b.v = if scalable s.params bs tid lid tl0 then
          #v[some st, some e, some i, some d, some bs, some (BitVec.ofNat 32 (tid.toNat % 8)), some lid, some tl0]
        else #v[some st, some e, some i, some d, some 0#32, some 0#32, some 0#32, some 0#32]

/-- A StreamId that was written parses back to itself, as either type, whatever SB and SLEN hold by then. -/
def Obligations.RoundTripOfStreamId : Prop :=
  ∀ r ∈ [(Instr.writeRsid, Instr.parseRsid), (Instr.writeRrsid, Instr.parseRrsid)],
    ∀ (s t : State) (p q : Port) (sb : Vector (Option Byte) 16) (slen : Option (BitVec 5)), s.Ready p →
    exec r.1 s = .next t → ¬ t.halted → t.port? = some q →
    ∃ b, EndsOk r.2 (t.setPort { q with ib := q.ob, sb := sb, slen := slen }) b ∧ b.slen = p.slen ∧
      ∀ n, p.slen = some n → ∀ k : Fin 16, k.val < n.toNat → b.sb.get k = p.sb.get k

/-! ## Whole-machine rules -/

/-- Every command of a running block on a port it has ends in a next state: no operand and no answer of the engine
stops a run. -/
def Obligations.EveryCommandEndsInANextState : Prop :=
  ∀ (i : Instr) (s : State), ¬ s.halted → s.cur < s.ports.length → ∃ t, exec i s = .next t

/-- R19, R139, R140, R141, R143: a command ends in exactly one of three ways, with a code or a kind that the tables give
for it, and writes nothing else when it fails or faults. The recorded questions are the model's own, log entry 6. -/
def Obligations.OutcomesFollowTheTables : Prop :=
  ∀ (i : Instr) (s t : State) (p : Port), s.Valid → s.Ready p → exec i s = .next t →
    (¬ t.halted ∧ ∃ q, t.port? = some q ∧ q.status = some 0#8) ∨
    ∃ asked,
      (∃ c, mayFail c i = true ∧ t = ({ s with asked := asked } : State).setPort { p with status := some c.code }) ∨
      (∃ k, mayRaise k i = true ∧
        t = { s with asked := asked, fault := k.register, fcmd := some (encode i) })

/-- What a command leaves unchanged: on the issuing port all but the registers and buffers its rule writes, the other
ports, the key state of a direction it does not belong to, KS, SUITE and TAGLEN for all but SETKEY, FAULT and FCMD unless
it faults, and the model's inputs. -/
def Obligations.FrameOfEveryCommand : Prop :=
  ∀ (i : Instr) (s t : State) (p : Port), s.Ready p → exec i s = .next t →
    (∃ q, t.port? = some q ∧ PortFrame i p q) ∧
    t.ports.length = s.ports.length ∧ (∀ n, n ≠ s.cur → t.ports[n]? = s.ports[n]?) ∧
    (∀ d, writesKey i d = false → t.key d = s.key d) ∧
    (i ≠ .setkeyOut → i ≠ .setkeyIn → ∀ d,
      (t.key d).ks = (s.key d).ks ∧ (t.key d).suite = (s.key d).suite ∧ (t.key d).tagLen = (s.key d).tagLen) ∧
    (¬ t.halted → t.fault = s.fault ∧ t.fcmd = s.fcmd) ∧
    t.params = s.params ∧ t.cur = s.cur ∧ t.draw = s.draw ∧ t.inbox = s.inbox

/-- R34: KS[d] goes from 0 to 1 only at a SETKEY of direction d, which writes SUITE, TAGLEN and SESS in the same step
and ends ok; nothing but a reset takes it back, and until then the suite stays. The only step of a halted block is a
reset. -/
def Obligations.KeyStateHasOneTransition : Prop :=
  ∀ (s t : State) (d : Direction), ¬ s.halted → step s = .next t → s.inbox.head? ≠ some .reset →
    ((s.key d).ks = true →
      (t.key d).ks = true ∧ (t.key d).suite = (s.key d).suite ∧ (t.key d).tagLen = (s.key d).tagLen) ∧
    ((s.key d).ks = false → (t.key d).ks = true →
      ∃ n draw q, s.inbox.head? = some (.writeCMD n (match d with | .out => 0x1000#16 | .inn => 0x1001#16) draw) ∧
        t.ports[n]? = some q ∧ q.status = some 0#8 ∧
        (t.key d).suite.isSome ∧ (t.key d).tagLen.isSome ∧ (t.key d).sess = draw.create)

/-- R70, R161: when some OLEN lets WRITE.T end ok on a value, then WRITESZ.T does, that is VSIZE.T, OLEN <- RES, WRITE.T:
it ends ok and writes the same bytes. -/
def Obligations.WriteSizedByVsizeEndsOk : Prop :=
  ∀ r ∈ writeSizePairs, ∀ (s t : State) (p q : Port) (olen : Option Word), s.Ready p →
    exec r.1 (s.setPort { p with olen := olen }) = .next t → ¬ t.halted → t.port? = some q →
    ∃ size, EndsOk r.2 s { p with res := some size } ∧
      EndsOk r.1 (s.setPort { p with status := some 0#8, res := some size, olen := some size })
        { p with res := some size, olen := some size, ob := q.ob }

/-- The state after reset has the invariant. -/
def Obligations.ResetIsValid : Prop := State.reset.Valid

/-- Every step keeps the invariant: the ports, the key state as R34 says it, STATUS within R139's codes, and FAULT and
FCMD within R140's table. -/
def Obligations.StepKeepsValid : Prop :=
  ∀ s t : State, s.Valid → step s = .next t → t.Valid

/-- R53: two commands from different ports commute, giving the same end state in either order, unless both are CLASS 1
commands of the same direction or one of them faults. -/
def Obligations.CommandsOfDifferentPortsCommute : Prop :=
  ∀ (s a b ab ba : State) (n m : Nat) (i j : Instr) (di dj : EngineDraw),
    n ≠ m → n < s.ports.length → m < s.ports.length → s.inbox = [] →
    (wrapperDirection i = none ∨ wrapperDirection i ≠ wrapperDirection j) →
    step { s with inbox := [.writeCMD n (encode i) di, .writeCMD m (encode j) dj] } = .next a → ¬ a.halted →
    step { s with inbox := [.writeCMD m (encode j) dj, .writeCMD n (encode i) di] } = .next b → ¬ b.halted →
    step a = .next ab → step b = .next ba → ab.SameBlock ba

/-- R149, R40: the block never reads inside a session. Two states that differ at most in SESS and CMD take the same step
as far as the host can see, and still differ at most there. -/
def Obligations.HiddenStateNeverShows : Prop :=
  ∀ s t s' : State, s.LooksLike t → step s = .next s' → ∃ t', step t = .next t' ∧ s'.LooksLike t'
end

