-- ==== Sys2Proof/Laws/Buffers.lean ====
section
/-! SUPPORT. What the memory primitives of spec/00_scope.md R17 and the reads and checks of a command can do, said
once. -/

namespace Sys2Proof.Machine

/-! ## The pseudocode's sequencing -/

@[simp] theorem ok_bind {α β : Type} (a : α) (f : α → Except Stop β) : (Except.ok a >>= f) = f a := rfl

@[simp] theorem error_bind {α β : Type} (e : Stop) (f : α → Except Stop β) :
    ((Except.error e : Except Stop α) >>= f) = Except.error e := rfl

@[simp] theorem pure_eq_ok {α : Type} (a : α) : (pure a : Except Stop α) = Except.ok a := rfl

@[simp] theorem throw_eq_error {α : Type} (e : Stop) : (throw e : Except Stop α) = Except.error e := rfl

/-- A sequence answers `ok` exactly when its first part does and the rest does on that answer. -/
theorem bind_eq_ok {α β : Type} {x : Except Stop α} {f : α → Except Stop β} {b : β} :
    (x >>= f) = .ok b ↔ ∃ a, x = .ok a ∧ f a = .ok b := by
  cases x <;> simp

/-- A sequence stops exactly when its first part stops, or the rest does on the first part's answer. -/
theorem bind_eq_error {α β : Type} {x : Except Stop α} {f : α → Except Stop β} {e : Stop} :
    (x >>= f) = .error e ↔ x = .error e ∨ ∃ a, x = .ok a ∧ f a = .error e := by
  cases x <;> simp

/-! ## Checks and reads -/

theorem require_of {c : Prop} [Decidable c] (h : c) (stop : Stop) : require c stop = .ok () := by
  simp [require, h]

theorem require_of_not {c : Prop} [Decidable c] (h : ¬ c) (stop : Stop) : require c stop = .error stop := by
  simp [require, h]

@[simp] theorem require_eq_ok {c : Prop} [Decidable c] {stop : Stop} {u : Unit} : require c stop = .ok u ↔ c := by
  by_cases h : c <;> simp [require, h]

@[simp] theorem require_eq_error {c : Prop} [Decidable c] {stop e : Stop} :
    require c stop = .error e ↔ ¬ c ∧ stop = e := by
  by_cases h : c <;> simp [require, h]

@[simp] theorem contract_eq_ok {c : Prop} [Decidable c] {u : Unit} : contract c = .ok u ↔ c := require_eq_ok

@[simp] theorem contract_eq_error {c : Prop} [Decidable c] {e : Stop} :
    contract c = .error e ↔ ¬ c ∧ .raise .contractViolation = e := require_eq_error

@[simp] theorem held_some {α : Type} (x : α) : held (some x) = .ok x := rfl

@[simp] theorem held_none {α : Type} : held (none : Option α) = .error (.raise .unwrittenRead) := rfl

@[simp] theorem held_eq_ok {α : Type} {r : Option α} {x : α} : held r = .ok x ↔ r = some x := by
  cases r <;> simp [held]

@[simp] theorem held_eq_error {α : Type} {r : Option α} {e : Stop} :
    held r = .error e ↔ r = none ∧ .raise .unwrittenRead = e := by
  cases r <;> simp [held]

/-- Several registers are read exactly when each holds its value. -/
theorem heldAll_eq_ok {α : Type} {rs : List (Option α)} {xs : List α} :
    heldAll rs = .ok xs ↔ rs = xs.map some := by
  induction rs generalizing xs with
  | nil => cases xs <;> simp [heldAll]
  | cons r rs ih =>
    cases xs with
    | nil => simp [heldAll, bind_eq_ok]
    | cons x xs => simp [heldAll, bind_eq_ok, ih]

/-- The only way a read of several registers stops is UnwrittenRead, when one of them holds no value. -/
theorem heldAll_eq_error {α : Type} {rs : List (Option α)} {e : Stop} :
    heldAll rs = .error e ↔ none ∈ rs ∧ .raise .unwrittenRead = e := by
  induction rs with
  | nil => simp [heldAll]
  | cons r rs ih =>
    cases r with
    | none => simp [heldAll]
    | some x => simp [heldAll, bind_eq_error, ih]

/-! ## Big-endian numbers (R17, R43) -/

@[simp] theorem beBytes_length (n x : Nat) : (beBytes n x).length = n := by
  induction n with
  | zero => rfl
  | succ n ih => simp [beBytes, ih]

/-- A byte sequence stands for a number below 256 to its length. -/
theorem beNat_lt (B : List Byte) : beNat B < 256 ^ B.length := by
  induction B with
  | nil => simp [beNat]
  | cons b bs ih =>
    have hb : b.toNat ≤ 255 := by have := b.isLt; omega
    simp only [beNat, List.length_cons, Nat.pow_succ]
    have := Nat.mul_le_mul_right (256 ^ bs.length) hb
    omega

/-- The bytes written for x stand for x mod 256^n. -/
theorem beNat_beBytes (n x : Nat) : beNat (beBytes n x) = x % 256 ^ n := by
  induction n with
  | zero => simp [beBytes, beNat, Nat.mod_one]
  | succ n ih =>
    simp only [beBytes, beNat, beBytes_length, ih, BitVec.toNat_ofNat, Nat.pow_succ 256]
    rw [Nat.mod_mul, show (2 : Nat) ^ 8 = 256 from rfl]
    ring

/-! ## MemRead and MemWrite (R17, R50) -/

theorem memRead_eq_ok {B : List Byte} {a n x : Nat} :
    memRead B a n = .ok x ↔ a + n ≤ B.length ∧ x = beNat ((B.drop a).take n) := by
  unfold memRead; split <;> simp_all [eq_comm]

/-- A read inside the buffer is defined. -/
theorem memRead_of_le {B : List Byte} {a n : Nat} (h : a + n ≤ B.length) :
    memRead B a n = .ok (beNat ((B.drop a).take n)) := by
  simp [memRead, h]

/-- A write inside the buffer is defined. -/
theorem memWrite_of_le {B : List Byte} {a n x : Nat} (h : a + n ≤ B.length) :
    memWrite B a n x = .ok (B.take a ++ beBytes n x ++ B.drop (a + n)) := by
  simp [memWrite, h]

/-- A write keeps the length of the buffer. -/
theorem memWrite_length {B C : List Byte} {a n x : Nat} (h : memWrite B a n x = .ok C) : C.length = B.length := by
  unfold memWrite at h
  split at h
  · cases h; simp; omega
  · cases h

/-- A read of what was just written gives the number modulo 256^n. -/
theorem memRead_memWrite {B C : List Byte} {a n x : Nat} (h : memWrite B a n x = .ok C) :
    memRead C a n = .ok (x % 256 ^ n) := by
  have hlen := memWrite_length h
  unfold memWrite at h
  split at h
  · rename_i hle
    cases h
    rw [memRead_of_le (by omega), ← beNat_beBytes]
    have htake : (B.take a).length = a := by simp; omega
    simp [List.append_assoc, htake]
  · cases h

/-- A write leaves every byte outside it as it was. -/
theorem memWrite_other {B C : List Byte} {a n x k : Nat} (h : memWrite B a n x = .ok C) (hk : k < a ∨ a + n ≤ k) :
    C[k]? = B[k]? := by
  unfold memWrite at h
  split at h
  · rename_i hle
    cases h
    have htake : (B.take a).length = a := by simp; omega
    rcases hk with hk | hk
    · rw [List.append_assoc, List.getElem?_append_left (by omega), List.getElem?_take_of_lt hk]
    · rw [List.getElem?_append_right (by simp; omega)]
      simp only [List.length_append, htake, beBytes_length, List.getElem?_drop]
      congr 1; omega
  · cases h

theorem byteAt_eq_ok {B : List Byte} {a : Nat} {b : Byte} : byteAt B a = .ok b ↔ B[a]? = some b := by
  unfold byteAt; split <;> simp_all

end Sys2Proof.Machine
end

