-- ==== Sys2Proof/Laws/State.lean ====
section
/-! SUPPORT. One lemma per field per update of a port and of the state, so that no proof unfolds a record update. -/

namespace Sys2Proof.Machine

/-! ## Updates of a port -/

theorem Port.setV_v (p : Port) (i : Fin 8) (x : Word) : (p.setV i x).v = p.v.set i (some x) := rfl
@[simp] theorem Port.setV_sb (p : Port) (i : Fin 8) (x : Word) : (p.setV i x).sb = p.sb := rfl
@[simp] theorem Port.setV_slen (p : Port) (i : Fin 8) (x : Word) : (p.setV i x).slen = p.slen := rfl
@[simp] theorem Port.setV_cmd (p : Port) (i : Fin 8) (x : Word) : (p.setV i x).cmd = p.cmd := rfl
@[simp] theorem Port.setV_status (p : Port) (i : Fin 8) (x : Word) : (p.setV i x).status = p.status := rfl
@[simp] theorem Port.setV_res (p : Port) (i : Fin 8) (x : Word) : (p.setV i x).res = p.res := rfl
@[simp] theorem Port.setV_ib (p : Port) (i : Fin 8) (x : Word) : (p.setV i x).ib = p.ib := rfl
@[simp] theorem Port.setV_ob (p : Port) (i : Fin 8) (x : Word) : (p.setV i x).ob = p.ob := rfl
@[simp] theorem Port.setV_olen (p : Port) (i : Fin 8) (x : Word) : (p.setV i x).olen = p.olen := rfl
@[simp] theorem Port.setV_pkt (p : Port) (i : Fin 8) (x : Word) : (p.setV i x).pkt = p.pkt := rfl

@[simp] theorem Port.setStreamId_v (p : Port) (bytes : List Byte) : (p.setStreamId bytes).v = p.v := rfl
@[simp] theorem Port.setStreamId_slen (p : Port) (bytes : List Byte) : (p.setStreamId bytes).slen = some (BitVec.ofNat 5 bytes.length) := rfl
@[simp] theorem Port.setStreamId_cmd (p : Port) (bytes : List Byte) : (p.setStreamId bytes).cmd = p.cmd := rfl
@[simp] theorem Port.setStreamId_status (p : Port) (bytes : List Byte) : (p.setStreamId bytes).status = p.status := rfl
@[simp] theorem Port.setStreamId_res (p : Port) (bytes : List Byte) : (p.setStreamId bytes).res = p.res := rfl
@[simp] theorem Port.setStreamId_ib (p : Port) (bytes : List Byte) : (p.setStreamId bytes).ib = p.ib := rfl
@[simp] theorem Port.setStreamId_ob (p : Port) (bytes : List Byte) : (p.setStreamId bytes).ob = p.ob := rfl
@[simp] theorem Port.setStreamId_olen (p : Port) (bytes : List Byte) : (p.setStreamId bytes).olen = p.olen := rfl
@[simp] theorem Port.setStreamId_pkt (p : Port) (bytes : List Byte) : (p.setStreamId bytes).pkt = p.pkt := rfl

@[simp] theorem Port.setOB_v (p : Port) (bytes : List Byte) : (p.setOB bytes).v = p.v := rfl
@[simp] theorem Port.setOB_sb (p : Port) (bytes : List Byte) : (p.setOB bytes).sb = p.sb := rfl
@[simp] theorem Port.setOB_slen (p : Port) (bytes : List Byte) : (p.setOB bytes).slen = p.slen := rfl
@[simp] theorem Port.setOB_cmd (p : Port) (bytes : List Byte) : (p.setOB bytes).cmd = p.cmd := rfl
@[simp] theorem Port.setOB_status (p : Port) (bytes : List Byte) : (p.setOB bytes).status = p.status := rfl
@[simp] theorem Port.setOB_res (p : Port) (bytes : List Byte) : (p.setOB bytes).res = p.res := rfl
@[simp] theorem Port.setOB_ib (p : Port) (bytes : List Byte) : (p.setOB bytes).ib = p.ib := rfl
@[simp] theorem Port.setOB_ob (p : Port) (bytes : List Byte) : (p.setOB bytes).ob = bytes := rfl
@[simp] theorem Port.setOB_olen (p : Port) (bytes : List Byte) : (p.setOB bytes).olen = p.olen := rfl
@[simp] theorem Port.setOB_pkt (p : Port) (bytes : List Byte) : (p.setOB bytes).pkt = p.pkt := rfl

@[simp] theorem Port.setIB_v (p : Port) (bytes : List Byte) : (p.setIB bytes).v = p.v := rfl
@[simp] theorem Port.setIB_sb (p : Port) (bytes : List Byte) : (p.setIB bytes).sb = p.sb := rfl
@[simp] theorem Port.setIB_slen (p : Port) (bytes : List Byte) : (p.setIB bytes).slen = p.slen := rfl
@[simp] theorem Port.setIB_cmd (p : Port) (bytes : List Byte) : (p.setIB bytes).cmd = p.cmd := rfl
@[simp] theorem Port.setIB_status (p : Port) (bytes : List Byte) : (p.setIB bytes).status = p.status := rfl
@[simp] theorem Port.setIB_res (p : Port) (bytes : List Byte) : (p.setIB bytes).res = p.res := rfl
@[simp] theorem Port.setIB_ib (p : Port) (bytes : List Byte) : (p.setIB bytes).ib = bytes := rfl
@[simp] theorem Port.setIB_ob (p : Port) (bytes : List Byte) : (p.setIB bytes).ob = p.ob := rfl
@[simp] theorem Port.setIB_olen (p : Port) (bytes : List Byte) : (p.setIB bytes).olen = p.olen := rfl
@[simp] theorem Port.setIB_pkt (p : Port) (bytes : List Byte) : (p.setIB bytes).pkt = p.pkt := rfl

@[simp] theorem Port.setRES_v (p : Port) (x : Word) : (p.setRES x).v = p.v := rfl
@[simp] theorem Port.setRES_sb (p : Port) (x : Word) : (p.setRES x).sb = p.sb := rfl
@[simp] theorem Port.setRES_slen (p : Port) (x : Word) : (p.setRES x).slen = p.slen := rfl
@[simp] theorem Port.setRES_cmd (p : Port) (x : Word) : (p.setRES x).cmd = p.cmd := rfl
@[simp] theorem Port.setRES_status (p : Port) (x : Word) : (p.setRES x).status = p.status := rfl
@[simp] theorem Port.setRES_res (p : Port) (x : Word) : (p.setRES x).res = some x := rfl
@[simp] theorem Port.setRES_ib (p : Port) (x : Word) : (p.setRES x).ib = p.ib := rfl
@[simp] theorem Port.setRES_ob (p : Port) (x : Word) : (p.setRES x).ob = p.ob := rfl
@[simp] theorem Port.setRES_olen (p : Port) (x : Word) : (p.setRES x).olen = p.olen := rfl
@[simp] theorem Port.setRES_pkt (p : Port) (x : Word) : (p.setRES x).pkt = p.pkt := rfl

@[simp] theorem Port.setPAY_v (p : Port) (bytes : List Byte) : (p.setPAY bytes).v = p.v := rfl
@[simp] theorem Port.setPAY_sb (p : Port) (bytes : List Byte) : (p.setPAY bytes).sb = p.sb := rfl
@[simp] theorem Port.setPAY_slen (p : Port) (bytes : List Byte) : (p.setPAY bytes).slen = p.slen := rfl
@[simp] theorem Port.setPAY_cmd (p : Port) (bytes : List Byte) : (p.setPAY bytes).cmd = p.cmd := rfl
@[simp] theorem Port.setPAY_status (p : Port) (bytes : List Byte) : (p.setPAY bytes).status = p.status := rfl
@[simp] theorem Port.setPAY_res (p : Port) (bytes : List Byte) : (p.setPAY bytes).res = p.res := rfl
@[simp] theorem Port.setPAY_ib (p : Port) (bytes : List Byte) : (p.setPAY bytes).ib = p.ib := rfl
@[simp] theorem Port.setPAY_ob (p : Port) (bytes : List Byte) : (p.setPAY bytes).ob = p.ob := rfl
@[simp] theorem Port.setPAY_olen (p : Port) (bytes : List Byte) : (p.setPAY bytes).olen = p.olen := rfl
@[simp] theorem Port.setPAY_pkt (p : Port) (bytes : List Byte) : (p.setPAY bytes).pkt = { p.pkt with pay := some bytes } := rfl

@[simp] theorem Port.setStatus_v (p : Port) (c : StatusCode) : (p.setStatus c).v = p.v := rfl
@[simp] theorem Port.setStatus_sb (p : Port) (c : StatusCode) : (p.setStatus c).sb = p.sb := rfl
@[simp] theorem Port.setStatus_slen (p : Port) (c : StatusCode) : (p.setStatus c).slen = p.slen := rfl
@[simp] theorem Port.setStatus_cmd (p : Port) (c : StatusCode) : (p.setStatus c).cmd = p.cmd := rfl
@[simp] theorem Port.setStatus_status (p : Port) (c : StatusCode) : (p.setStatus c).status = some c.code := rfl
@[simp] theorem Port.setStatus_res (p : Port) (c : StatusCode) : (p.setStatus c).res = p.res := rfl
@[simp] theorem Port.setStatus_ib (p : Port) (c : StatusCode) : (p.setStatus c).ib = p.ib := rfl
@[simp] theorem Port.setStatus_ob (p : Port) (c : StatusCode) : (p.setStatus c).ob = p.ob := rfl
@[simp] theorem Port.setStatus_olen (p : Port) (c : StatusCode) : (p.setStatus c).olen = p.olen := rfl
@[simp] theorem Port.setStatus_pkt (p : Port) (c : StatusCode) : (p.setStatus c).pkt = p.pkt := rfl

/-- The bytes of SB after a StreamId is loaded: the new ones below the length, the old ones from there on (R111). -/
theorem Port.setStreamId_sb_get (p : Port) (bytes : List Byte) (i : Fin 16) :
    (p.setStreamId bytes).sb.get i = if i.val < bytes.length then bytes[i.val]? else p.sb.get i := by
  simp [Port.setStreamId, Vector.get_eq_getElem]

/-- A value register after a write of one (R16). -/
@[simp] theorem Port.setV_get (p : Port) (i j : Fin 8) (x : Word) :
    (p.setV i x).v.get j = if i = j then some x else p.v.get j := by
  simp [Port.setV, Vector.get_eq_getElem, Vector.getElem_set, Fin.ext_iff]

/-! ## Updates of the state -/

@[simp] theorem State.setPort_ports (s : State) (p : Port) : (s.setPort p).ports = s.ports.set s.cur p := rfl
@[simp] theorem State.setPort_keyOut (s : State) (p : Port) : (s.setPort p).keyOut = s.keyOut := rfl
@[simp] theorem State.setPort_keyIn (s : State) (p : Port) : (s.setPort p).keyIn = s.keyIn := rfl
@[simp] theorem State.setPort_fault (s : State) (p : Port) : (s.setPort p).fault = s.fault := rfl
@[simp] theorem State.setPort_fcmd (s : State) (p : Port) : (s.setPort p).fcmd = s.fcmd := rfl
@[simp] theorem State.setPort_params (s : State) (p : Port) : (s.setPort p).params = s.params := rfl
@[simp] theorem State.setPort_cur (s : State) (p : Port) : (s.setPort p).cur = s.cur := rfl
@[simp] theorem State.setPort_draw (s : State) (p : Port) : (s.setPort p).draw = s.draw := rfl
@[simp] theorem State.setPort_asked (s : State) (p : Port) : (s.setPort p).asked = s.asked := rfl
@[simp] theorem State.setPort_inbox (s : State) (p : Port) : (s.setPort p).inbox = s.inbox := rfl

@[simp] theorem State.setKey_out_ports (s : State) (k : KeyState) : (s.setKey .out k).ports = s.ports := rfl
@[simp] theorem State.setKey_out_keyOut (s : State) (k : KeyState) : (s.setKey .out k).keyOut = k := rfl
@[simp] theorem State.setKey_out_keyIn (s : State) (k : KeyState) : (s.setKey .out k).keyIn = s.keyIn := rfl
@[simp] theorem State.setKey_out_fault (s : State) (k : KeyState) : (s.setKey .out k).fault = s.fault := rfl
@[simp] theorem State.setKey_out_fcmd (s : State) (k : KeyState) : (s.setKey .out k).fcmd = s.fcmd := rfl
@[simp] theorem State.setKey_out_params (s : State) (k : KeyState) : (s.setKey .out k).params = s.params := rfl
@[simp] theorem State.setKey_out_cur (s : State) (k : KeyState) : (s.setKey .out k).cur = s.cur := rfl
@[simp] theorem State.setKey_out_draw (s : State) (k : KeyState) : (s.setKey .out k).draw = s.draw := rfl
@[simp] theorem State.setKey_out_asked (s : State) (k : KeyState) : (s.setKey .out k).asked = s.asked := rfl
@[simp] theorem State.setKey_out_inbox (s : State) (k : KeyState) : (s.setKey .out k).inbox = s.inbox := rfl

@[simp] theorem State.setKey_inn_ports (s : State) (k : KeyState) : (s.setKey .inn k).ports = s.ports := rfl
@[simp] theorem State.setKey_inn_keyOut (s : State) (k : KeyState) : (s.setKey .inn k).keyOut = s.keyOut := rfl
@[simp] theorem State.setKey_inn_keyIn (s : State) (k : KeyState) : (s.setKey .inn k).keyIn = k := rfl
@[simp] theorem State.setKey_inn_fault (s : State) (k : KeyState) : (s.setKey .inn k).fault = s.fault := rfl
@[simp] theorem State.setKey_inn_fcmd (s : State) (k : KeyState) : (s.setKey .inn k).fcmd = s.fcmd := rfl
@[simp] theorem State.setKey_inn_params (s : State) (k : KeyState) : (s.setKey .inn k).params = s.params := rfl
@[simp] theorem State.setKey_inn_cur (s : State) (k : KeyState) : (s.setKey .inn k).cur = s.cur := rfl
@[simp] theorem State.setKey_inn_draw (s : State) (k : KeyState) : (s.setKey .inn k).draw = s.draw := rfl
@[simp] theorem State.setKey_inn_asked (s : State) (k : KeyState) : (s.setKey .inn k).asked = s.asked := rfl
@[simp] theorem State.setKey_inn_inbox (s : State) (k : KeyState) : (s.setKey .inn k).inbox = s.inbox := rfl

@[simp] theorem State.ask_ports (s : State) (q : EngineQuestion) : (s.ask q).ports = s.ports := rfl
@[simp] theorem State.ask_keyOut (s : State) (q : EngineQuestion) : (s.ask q).keyOut = s.keyOut := rfl
@[simp] theorem State.ask_keyIn (s : State) (q : EngineQuestion) : (s.ask q).keyIn = s.keyIn := rfl
@[simp] theorem State.ask_fault (s : State) (q : EngineQuestion) : (s.ask q).fault = s.fault := rfl
@[simp] theorem State.ask_fcmd (s : State) (q : EngineQuestion) : (s.ask q).fcmd = s.fcmd := rfl
@[simp] theorem State.ask_params (s : State) (q : EngineQuestion) : (s.ask q).params = s.params := rfl
@[simp] theorem State.ask_cur (s : State) (q : EngineQuestion) : (s.ask q).cur = s.cur := rfl
@[simp] theorem State.ask_draw (s : State) (q : EngineQuestion) : (s.ask q).draw = s.draw := rfl
@[simp] theorem State.ask_asked (s : State) (q : EngineQuestion) : (s.ask q).asked = s.asked ++ [q] := rfl
@[simp] theorem State.ask_inbox (s : State) (q : EngineQuestion) : (s.ask q).inbox = s.inbox := rfl

@[simp] theorem State.setPort_flt (s : State) (p : Port) : (s.setPort p).flt = s.flt := rfl
@[simp] theorem State.ask_flt (s : State) (q : EngineQuestion) : (s.ask q).flt = s.flt := rfl
@[simp] theorem State.setKey_flt (s : State) (d : Direction) (k : KeyState) : (s.setKey d k).flt = s.flt := by
  cases d <;> rfl
@[simp] theorem State.setKey_cur (s : State) (d : Direction) (k : KeyState) : (s.setKey d k).cur = s.cur := by
  cases d <;> rfl
@[simp] theorem State.setKey_ports (s : State) (d : Direction) (k : KeyState) : (s.setKey d k).ports = s.ports := by
  cases d <;> rfl
@[simp] theorem State.setKey_params (s : State) (d : Direction) (k : KeyState) : (s.setKey d k).params = s.params := by
  cases d <;> rfl
@[simp] theorem State.setKey_key_same (s : State) (d : Direction) (k : KeyState) : (s.setKey d k).key d = k := by
  cases d <;> rfl
@[simp] theorem State.setPort_key (s : State) (p : Port) (d : Direction) : (s.setPort p).key d = s.key d := by
  cases d <;> rfl
@[simp] theorem State.ask_key (s : State) (q : EngineQuestion) (d : Direction) : (s.ask q).key d = s.key d := by
  cases d <;> rfl
@[simp] theorem State.ask_port? (s : State) (q : EngineQuestion) : (s.ask q).port? = s.port? := rfl
@[simp] theorem State.setKey_port? (s : State) (d : Direction) (k : KeyState) : (s.setKey d k).port? = s.port? := by
  cases d <;> rfl

/-- The other direction's key state is untouched (R131, R132). -/
theorem State.setKey_key_other (s : State) (d e : Direction) (k : KeyState) (h : e ≠ d) :
    (s.setKey d k).key e = s.key e := by
  cases d <;> cases e <;> first | rfl | exact absurd rfl h

/-- A port that is there stays reachable after its replacement. -/
theorem State.setPort_port? {s : State} {p : Port} (q : Port) (h : s.port? = some p) :
    (s.setPort q).port? = some q := by
  have hlt : s.cur < s.ports.length := (List.getElem?_eq_some_iff.mp h).1
  simp [State.port?, State.setPort, hlt]

/-- Replacing the issuing port twice is replacing it once. -/
@[simp] theorem State.setPort_setPort (s : State) (p q : Port) : (s.setPort p).setPort q = s.setPort q := by
  simp [State.setPort]

/-- The ports that did not issue the command are untouched (R42). -/
theorem State.setPort_other (s : State) (p : Port) (n : Nat) (h : n ≠ s.cur) :
    (s.setPort p).ports[n]? = s.ports[n]? := by
  simp [State.setPort, List.getElem?_set_ne (Ne.symm h)]

/-- The issuing port is there exactly when its number is below the number of ports. -/
theorem State.port?_isSome_iff (s : State) : s.port?.isSome ↔ s.cur < s.ports.length := by
  simp [State.port?]

/-! ## Fault entry (R141) -/

/-- The register value a fault leaves has FLT = 1 (R32). -/
theorem FaultKind.register_flt (k : FaultKind) : k.register.extractLsb' 0 1 = 1#1 := by
  cases k <;> decide

/-- The register value a fault leaves has the fault's KIND in bits 7:4 (R32). -/
theorem FaultKind.register_kind (k : FaultKind) : k.register.extractLsb' 4 4 = k.code := by
  cases k <;> decide

theorem State.raiseFault_of_running {s : State} (h : ¬ s.halted) (k : FaultKind) (w : CmdWord) :
    s.raiseFault k w = { s with fault := k.register, fcmd := some w } := by
  simp [State.raiseFault, h]

theorem State.raiseFault_of_halted {s : State} (h : s.halted) (k : FaultKind) (w : CmdWord) :
    s.raiseFault k w = s := by
  simp [State.raiseFault, h]

@[simp] theorem State.raiseFault_ports (s : State) (k : FaultKind) (w : CmdWord) : (s.raiseFault k w).ports = s.ports := by
  unfold State.raiseFault; split <;> rfl
@[simp] theorem State.raiseFault_keyOut (s : State) (k : FaultKind) (w : CmdWord) : (s.raiseFault k w).keyOut = s.keyOut := by
  unfold State.raiseFault; split <;> rfl
@[simp] theorem State.raiseFault_keyIn (s : State) (k : FaultKind) (w : CmdWord) : (s.raiseFault k w).keyIn = s.keyIn := by
  unfold State.raiseFault; split <;> rfl
@[simp] theorem State.raiseFault_params (s : State) (k : FaultKind) (w : CmdWord) : (s.raiseFault k w).params = s.params := by
  unfold State.raiseFault; split <;> rfl
@[simp] theorem State.raiseFault_cur (s : State) (k : FaultKind) (w : CmdWord) : (s.raiseFault k w).cur = s.cur := by
  unfold State.raiseFault; split <;> rfl
@[simp] theorem State.raiseFault_draw (s : State) (k : FaultKind) (w : CmdWord) : (s.raiseFault k w).draw = s.draw := by
  unfold State.raiseFault; split <;> rfl
@[simp] theorem State.raiseFault_asked (s : State) (k : FaultKind) (w : CmdWord) : (s.raiseFault k w).asked = s.asked := by
  unfold State.raiseFault; split <;> rfl
@[simp] theorem State.raiseFault_inbox (s : State) (k : FaultKind) (w : CmdWord) : (s.raiseFault k w).inbox = s.inbox := by
  unfold State.raiseFault; split <;> rfl

/-- After a fault is raised the block is halted (R142). -/
theorem State.raiseFault_halted (s : State) (k : FaultKind) (w : CmdWord) : (s.raiseFault k w).halted := by
  by_cases h : s.halted
  · rwa [State.raiseFault_of_halted h]
  · rw [State.raiseFault_of_running h]; exact k.register_flt

end Sys2Proof.Machine
end

