-- ==== Sys2Proof/Laws/Runs.lean ====
section
/-! SUPPORT. What running a command and performing a host action can do, said once for each shared operation. -/

namespace Sys2Proof.Machine

/-! ## A command that stops early (R19) -/

@[simp] theorem State.stopped_fail (s : State) (i : Instr) (p : Port) (c : StatusCode) :
    s.stopped i p (.fail c) = .next (s.setPort (p.setStatus c)) := rfl

@[simp] theorem State.stopped_raise (s : State) (i : Instr) (p : Port) (k : FaultKind) :
    s.stopped i p (.raise k) = .next (s.raiseFault k (encode i)) := rfl

@[simp] theorem State.stopped_undefinedAccess (s : State) (i : Instr) (p : Port) :
    s.stopped i p .undefinedAccess = .fault .undefinedAccess := rfl

/-- A stop that leaves a next state is a failure or a fault of the block. -/
theorem State.stopped_next {s t : State} {i : Instr} {p : Port} {stop : Stop} (h : s.stopped i p stop = .next t) :
    (∃ c, stop = .fail c ∧ t = s.setPort (p.setStatus c)) ∨
    (∃ k, stop = .raise k ∧ t = s.raiseFault k (encode i)) := by
  cases stop with
  | fail c => cases h; exact .inl ⟨c, rfl, rfl⟩
  | raise k => cases h; exact .inr ⟨k, rfl, rfl⟩
  | undefinedAccess => cases h

/-! ## A command on the issuing port -/

section
variable {i : Instr} {body : Params → Port → Except Stop Port} {s t : State} {p p' : Port} {stop : Stop}

theorem runPort_of_halted (h : s.halted) : runPort i body s = .fault .halted := by
  simp [runPort, h]

theorem runPort_of_ok (hr : ¬ s.halted) (hp : s.port? = some p) (hb : body s.params p = .ok p') :
    runPort i body s = .next (s.setPort (p'.setStatus .ok)) := by
  simp [runPort, hr, hp, hb]

theorem runPort_of_error (hr : ¬ s.halted) (hp : s.port? = some p) (hb : body s.params p = .error stop) :
    runPort i body s = s.stopped i p stop := by
  simp [runPort, hr, hp, hb]

theorem runPort_of_fail {c : StatusCode} (hr : ¬ s.halted) (hp : s.port? = some p)
    (hb : body s.params p = .error (.fail c)) : runPort i body s = .next (s.setPort (p.setStatus c)) :=
  runPort_of_error hr hp hb

theorem runPort_of_raise {k : FaultKind} (hr : ¬ s.halted) (hp : s.port? = some p)
    (hb : body s.params p = .error (.raise k)) :
    runPort i body s = .next { s with fault := k.register, fcmd := some (encode i) } := by
  rw [runPort_of_error hr hp hb, State.stopped_raise, State.raiseFault_of_running hr]

/-- All that a command on the issuing port can do if it leaves a next state. -/
theorem runPort_next (h : runPort i body s = .next t) :
    ¬ s.halted ∧ ∃ p, s.port? = some p ∧
      ((∃ p', body s.params p = .ok p' ∧ t = s.setPort (p'.setStatus .ok)) ∨
       (∃ c, body s.params p = .error (.fail c) ∧ t = s.setPort (p.setStatus c)) ∨
       (∃ k, body s.params p = .error (.raise k) ∧ t = s.raiseFault k (encode i))) := by
  by_cases hr : s.halted
  · rw [runPort_of_halted hr] at h; cases h
  · refine ⟨hr, ?_⟩
    cases hp : s.port? with
    | none => simp [runPort, hr, hp] at h
    | some p =>
      refine ⟨p, rfl, ?_⟩
      cases hb : body s.params p with
      | ok p' => rw [runPort_of_ok hr hp hb] at h; cases h; exact .inl ⟨p', rfl, rfl⟩
      | error stop =>
        rw [runPort_of_error hr hp hb] at h
        rcases State.stopped_next h with ⟨c, rfl, rfl⟩ | ⟨k, rfl, rfl⟩
        · exact .inr (.inl ⟨c, rfl, rfl⟩)
        · exact .inr (.inr ⟨k, rfl, rfl⟩)

end

/-! ## A command that asks the engine -/

section
variable {i : Instr} {d : Direction} {body : Params → KeyState → Port → Except Stop EngineCall} {s t : State}
  {p p' : Port} {k : KeyState} {call : EngineCall} {stop : Stop}

theorem runEngine_of_halted (h : s.halted) : runEngine i d body s = .fault .halted := by
  simp [runEngine, h]

theorem runEngine_of_error (hr : ¬ s.halted) (hp : s.port? = some p)
    (hb : body s.params (s.key d) p = .error stop) : runEngine i d body s = s.stopped i p stop := by
  simp [runEngine, hr, hp, hb]

theorem runEngine_of_fail {c : StatusCode} (hr : ¬ s.halted) (hp : s.port? = some p)
    (hb : body s.params (s.key d) p = .error (.fail c)) :
    runEngine i d body s = .next (s.setPort (p.setStatus c)) :=
  runEngine_of_error hr hp hb

theorem runEngine_of_raise {f : FaultKind} (hr : ¬ s.halted) (hp : s.port? = some p)
    (hb : body s.params (s.key d) p = .error (.raise f)) :
    runEngine i d body s = .next { s with fault := f.register, fcmd := some (encode i) } := by
  rw [runEngine_of_error hr hp hb, State.stopped_raise, State.raiseFault_of_running hr]

theorem runEngine_of_answer (hr : ¬ s.halted) (hp : s.port? = some p)
    (hb : body s.params (s.key d) p = .ok call) (hf : call.finish s.draw = .ok (k, p')) :
    runEngine i d body s = .next (((s.ask call.question).setKey d k).setPort (p'.setStatus .ok)) := by
  simp [runEngine, hr, hp, hb, hf]

theorem runEngine_of_refusal (hr : ¬ s.halted) (hp : s.port? = some p)
    (hb : body s.params (s.key d) p = .ok call) (hf : call.finish s.draw = .error stop) :
    runEngine i d body s = (s.ask call.question).stopped i p stop := by
  simp [runEngine, hr, hp, hb, hf]

/-- All that a command that asks the engine can do if it leaves a next state. -/
theorem runEngine_next (h : runEngine i d body s = .next t) :
    ¬ s.halted ∧ ∃ p, s.port? = some p ∧
      ((∃ c, body s.params (s.key d) p = .error (.fail c) ∧ t = s.setPort (p.setStatus c)) ∨
       (∃ f, body s.params (s.key d) p = .error (.raise f) ∧ t = s.raiseFault f (encode i)) ∨
       (∃ call, body s.params (s.key d) p = .ok call ∧
         ((∃ k p', call.finish s.draw = .ok (k, p') ∧
            t = ((s.ask call.question).setKey d k).setPort (p'.setStatus .ok)) ∨
          (∃ c, call.finish s.draw = .error (.fail c) ∧ t = (s.ask call.question).setPort (p.setStatus c)) ∨
          (∃ f, call.finish s.draw = .error (.raise f) ∧
            t = (s.ask call.question).raiseFault f (encode i))))) := by
  by_cases hr : s.halted
  · rw [runEngine_of_halted hr] at h; cases h
  · refine ⟨hr, ?_⟩
    cases hp : s.port? with
    | none => simp [runEngine, hr, hp] at h
    | some p =>
      refine ⟨p, rfl, ?_⟩
      cases hb : body s.params (s.key d) p with
      | error stop =>
        rw [runEngine_of_error hr hp hb] at h
        rcases State.stopped_next h with ⟨c, rfl, rfl⟩ | ⟨f, rfl, rfl⟩
        · exact .inl ⟨c, rfl, rfl⟩
        · exact .inr (.inl ⟨f, rfl, rfl⟩)
      | ok call =>
        refine .inr (.inr ⟨call, rfl, ?_⟩)
        cases hf : call.finish s.draw with
        | ok r =>
          obtain ⟨k, p'⟩ := r
          rw [runEngine_of_answer hr hp hb hf] at h; cases h
          exact .inl ⟨k, p', rfl, rfl⟩
        | error stop =>
          rw [runEngine_of_refusal hr hp hb hf] at h
          rcases State.stopped_next h with ⟨c, rfl, rfl⟩ | ⟨f, rfl, rfl⟩
          · exact .inr (.inl ⟨c, rfl, rfl⟩)
          · exact .inr (.inr ⟨f, rfl, rfl⟩)

end

/-! ## Host actions -/

/-- A host write that leaves a next state changed one port that is there, and nothing else. -/
theorem State.hostWrite_next {s t : State} {n : Nat} {f : Port → Port} (h : s.hostWrite n f = .next t) :
    ∃ p, s.ports[n]? = some p ∧ t = { s with ports := s.ports.set n (f p) } := by
  unfold State.hostWrite at h
  split at h
  · cases h
  · rename_i p hp; cases h; exact ⟨p, hp, rfl⟩

/-- A CMD write on a port that is there starts the command. -/
theorem State.perform_writeCMD {s : State} {n : Nat} {w : CmdWord} {draw : EngineDraw} (hn : n < s.ports.length) :
    s.perform (.writeCMD n w draw) = .command w (s.accept n w draw) := by
  simp [State.perform, hn]

theorem afterReset_eq_none {acts : List HostAction} : afterReset acts = none ↔ HostAction.reset ∉ acts := by
  induction acts with
  | nil => simp [afterReset]
  | cons a rest ih => cases a <;> simp [afterReset, ih]

/-- The actions after the first reset are those after what holds no reset and a reset. -/
theorem afterReset_eq_some {acts rest : List HostAction} :
    afterReset acts = some rest ↔ ∃ before, HostAction.reset ∉ before ∧ acts = before ++ .reset :: rest := by
  induction acts with
  | nil => simp [afterReset]
  | cons a acts ih =>
    by_cases h : a = .reset
    · subst h
      simp only [afterReset, Option.some.injEq]
      constructor
      · rintro rfl; exact ⟨[], by simp, rfl⟩
      · rintro ⟨before, hb, he⟩
        cases before with
        | nil => simpa using he
        | cons b before => simp only [List.cons_append, List.cons.injEq] at he; simp [← he.1] at hb
    · have hs : afterReset (a :: acts) = afterReset acts := by cases a <;> simp_all [afterReset]
      rw [hs, ih]
      constructor
      · rintro ⟨before, hb, rfl⟩
        exact ⟨a :: before, by simp [hb, Ne.symm h], rfl⟩
      · rintro ⟨before, hb, he⟩
        cases before with
        | nil => simp only [List.nil_append, List.cons.injEq] at he; exact absurd he.1 h
        | cons b before =>
          simp only [List.cons_append, List.cons.injEq] at he
          exact ⟨before, fun hm => hb (List.mem_cons_of_mem _ hm), he.2⟩

/-- All that a halted block can do: the first reset to come. -/
theorem State.leaveHalt_next {s t : State} (h : s.leaveHalt = .next t) :
    ∃ rest, afterReset s.inbox = some rest ∧ t = { s with inbox := rest }.resetBlock := by
  unfold State.leaveHalt at h
  split at h
  · cases h
  · rename_i rest hr; cases h; exact ⟨rest, hr, rfl⟩

theorem State.nextRequest_halted {s : State} (h : s.halted) : s.nextRequest = .done s.leaveHalt := by
  simp [State.nextRequest, h]

theorem State.nextRequest_nil {s : State} (hr : ¬ s.halted) (h : s.inbox = []) :
    s.nextRequest = .done (.next s) := by
  simp [State.nextRequest, hr, h]

theorem State.nextRequest_cons {s : State} {a : HostAction} {rest : List HostAction} (hr : ¬ s.halted)
    (h : s.inbox = a :: rest) : s.nextRequest = { s with inbox := rest }.perform a := by
  simp [State.nextRequest, hr, h]

/-- All that can start a command: a CMD write, at the head of the inbox, on a port of a running block. -/
theorem State.nextRequest_command {s t : State} {w : CmdWord} (h : s.nextRequest = .command w t) :
    ∃ n draw rest, s.inbox = .writeCMD n w draw :: rest ∧ n < s.ports.length ∧ ¬ s.halted ∧
      t = { s with inbox := rest }.accept n w draw := by
  by_cases hr : s.halted
  · rw [State.nextRequest_halted hr] at h; cases h
  · cases hi : s.inbox with
    | nil => rw [State.nextRequest_nil hr hi] at h; cases h
    | cons a rest =>
      rw [State.nextRequest_cons hr hi] at h
      cases a with
      | writeCMD n w' draw =>
        simp only [State.perform] at h
        split at h
        · rename_i hn; cases h; exact ⟨n, draw, rest, rfl, hn, hr, rfl⟩
        · cases h
      | _ => cases h

end Sys2Proof.Machine
end

