-- ==== Sys2Proof/Laws/Exec.lean ====
section
/-! SUPPORT. Each command as the shared operation its meaning is: what `exec` unfolds to, one lemma per command. -/

namespace Sys2Proof.Machine

theorem exec_parseAst (s : State) : exec .parseAst s = runPort .parseAst parseAstBody s := rfl
theorem exec_parseAl (s : State) : exec .parseAl s = runPort .parseAl parseAlBody s := rfl
theorem exec_parseToff (s : State) : exec .parseToff s = runPort .parseToff parseToffBody s := rfl
theorem exec_parseTsn (s : State) : exec .parseTsn s = runPort .parseTsn parseTsnBody s := rfl
theorem exec_parseCvo (s : State) : exec .parseCvo s = runPort .parseCvo parseCvoBody s := rfl
theorem exec_parseCvoraw (s : State) : exec .parseCvoraw s = runPort .parseCvoraw parseCvorawBody s := rfl
theorem exec_parsePdl (s : State) : exec .parsePdl s = runPort .parsePdl parsePdlBody s := rfl
theorem exec_parseVct (s : State) : exec .parseVct s = runPort .parseVct parseVctBody s := rfl
theorem exec_parseVt (s : State) : exec .parseVt s = runPort .parseVt parseVtBody s := rfl
theorem exec_parseRsid (s : State) : exec .parseRsid s = runPort .parseRsid parseStreamIdBody s := rfl
theorem exec_parseRrsid (s : State) : exec .parseRrsid s = runPort .parseRrsid parseStreamIdBody s := rfl
theorem exec_parseFm (s : State) : exec .parseFm s = runPort .parseFm parseFmBody s := rfl
theorem exec_writeAst (s : State) : exec .writeAst s = runPort .writeAst writeAstBody s := rfl
theorem exec_writeAl (s : State) : exec .writeAl s = runPort .writeAl writeAlBody s := rfl
theorem exec_writeToff (s : State) : exec .writeToff s = runPort .writeToff writeToffBody s := rfl
theorem exec_writeTsn (s : State) : exec .writeTsn s = runPort .writeTsn writeTsnBody s := rfl
theorem exec_writeCvo (s : State) : exec .writeCvo s = runPort .writeCvo writeCvoBody s := rfl
theorem exec_writeCvoraw (s : State) : exec .writeCvoraw s = runPort .writeCvoraw writeCvorawBody s := rfl
theorem exec_writePdl (s : State) : exec .writePdl s = runPort .writePdl writePdlBody s := rfl
theorem exec_writeVct (s : State) : exec .writeVct s = runPort .writeVct writeVctBody s := rfl
theorem exec_writeVt (s : State) : exec .writeVt s = runPort .writeVt writeVtBody s := rfl
theorem exec_writeRsid (s : State) : exec .writeRsid s = runPort .writeRsid writeStreamIdBody s := rfl
theorem exec_writeRrsid (s : State) : exec .writeRrsid s = runPort .writeRrsid writeStreamIdBody s := rfl
theorem exec_writeFm (s : State) : exec .writeFm s = runPort .writeFm writeFmBody s := rfl
theorem exec_vsizeAst (s : State) : exec .vsizeAst s = runPort .vsizeAst (vsizeBody 3) s := rfl
theorem exec_vsizeAl (s : State) : exec .vsizeAl s = runPort .vsizeAl (vsizeBody 1) s := rfl
theorem exec_vsizeToff (s : State) : exec .vsizeToff s = runPort .vsizeToff (vsizeBody 3) s := rfl
theorem exec_vsizeTsn (s : State) : exec .vsizeTsn s = runPort .vsizeTsn (vsizeBody 2) s := rfl
theorem exec_vsizeCvo (s : State) : exec .vsizeCvo s = runPort .vsizeCvo (vsizeBody 1) s := rfl
theorem exec_vsizeCvoraw (s : State) : exec .vsizeCvoraw s = runPort .vsizeCvoraw (vsizeBody 1) s := rfl
theorem exec_vsizePdl (s : State) : exec .vsizePdl s = runPort .vsizePdl (vsizeBody 3) s := rfl
theorem exec_vsizeVct (s : State) : exec .vsizeVct s = runPort .vsizeVct (vsizeBody 1) s := rfl
theorem exec_vsizeVt (s : State) : exec .vsizeVt s = runPort .vsizeVt (vsizeBody 12) s := rfl
theorem exec_vsizeRsid (s : State) : exec .vsizeRsid s = runPort .vsizeRsid vsizeStreamIdBody s := rfl
theorem exec_vsizeRrsid (s : State) : exec .vsizeRrsid s = runPort .vsizeRrsid vsizeStreamIdBody s := rfl
theorem exec_vsizeFm (s : State) : exec .vsizeFm s = runPort .vsizeFm vsizeFmBody s := rfl
theorem exec_vp9lid (s : State) : exec .vp9lid s = runPort .vp9lid vp9lidBody s := rfl
theorem exec_setkeyOut (s : State) : exec .setkeyOut s = runEngine .setkeyOut .out (setkeyBody .out) s := rfl
theorem exec_setkeyIn (s : State) : exec .setkeyIn s = runEngine .setkeyIn .inn (setkeyBody .inn) s := rfl
theorem exec_encrypt (s : State) : exec .encrypt s = runEngine .encrypt .out encryptBody s := rfl
theorem exec_decrypt (s : State) : exec .decrypt s = runEngine .decrypt .inn decryptBody s := rfl
theorem exec_overhead (s : State) : exec .overhead s = runPort .overhead (overheadBody s.keyOut) s := rfl

/-- Every command is one of the two shared operations: on the issuing port alone, or with the engine. -/
theorem exec_cases (i : Instr) (s : State) :
    (∃ body, exec i s = runPort i body s) ∨ ∃ d body, exec i s = runEngine i d body s := by
  cases i <;> first | exact .inl ⟨_, rfl⟩ | exact .inl ⟨vsizeBody _, rfl⟩ | exact .inr ⟨_, _, rfl⟩

end Sys2Proof.Machine
end

