-- ==== Sys2Proof/Laws/PerInstr.lean ====
section
/-! SUPPORT. Facts proved one command at a time: the word of a command decodes to it (spec/30_encoding.md R65, R67). -/

namespace Sys2Proof.Laws

def WordRoundTrip.Statement (i : Instr) : Prop := decode (encode i) = .command i

theorem WordRoundTrip.parseAst : WordRoundTrip.Statement .parseAst := by unfold WordRoundTrip.Statement; decide
theorem WordRoundTrip.parseAl : WordRoundTrip.Statement .parseAl := by unfold WordRoundTrip.Statement; decide
theorem WordRoundTrip.parseToff : WordRoundTrip.Statement .parseToff := by unfold WordRoundTrip.Statement; decide
theorem WordRoundTrip.parseTsn : WordRoundTrip.Statement .parseTsn := by unfold WordRoundTrip.Statement; decide
theorem WordRoundTrip.parseCvo : WordRoundTrip.Statement .parseCvo := by unfold WordRoundTrip.Statement; decide
theorem WordRoundTrip.parseCvoraw : WordRoundTrip.Statement .parseCvoraw := by unfold WordRoundTrip.Statement; decide
theorem WordRoundTrip.parsePdl : WordRoundTrip.Statement .parsePdl := by unfold WordRoundTrip.Statement; decide
theorem WordRoundTrip.parseVct : WordRoundTrip.Statement .parseVct := by unfold WordRoundTrip.Statement; decide
theorem WordRoundTrip.parseVt : WordRoundTrip.Statement .parseVt := by unfold WordRoundTrip.Statement; decide
theorem WordRoundTrip.parseRsid : WordRoundTrip.Statement .parseRsid := by unfold WordRoundTrip.Statement; decide
theorem WordRoundTrip.parseRrsid : WordRoundTrip.Statement .parseRrsid := by unfold WordRoundTrip.Statement; decide
theorem WordRoundTrip.parseFm : WordRoundTrip.Statement .parseFm := by unfold WordRoundTrip.Statement; decide
theorem WordRoundTrip.writeAst : WordRoundTrip.Statement .writeAst := by unfold WordRoundTrip.Statement; decide
theorem WordRoundTrip.writeAl : WordRoundTrip.Statement .writeAl := by unfold WordRoundTrip.Statement; decide
theorem WordRoundTrip.writeToff : WordRoundTrip.Statement .writeToff := by unfold WordRoundTrip.Statement; decide
theorem WordRoundTrip.writeTsn : WordRoundTrip.Statement .writeTsn := by unfold WordRoundTrip.Statement; decide
theorem WordRoundTrip.writeCvo : WordRoundTrip.Statement .writeCvo := by unfold WordRoundTrip.Statement; decide
theorem WordRoundTrip.writeCvoraw : WordRoundTrip.Statement .writeCvoraw := by unfold WordRoundTrip.Statement; decide
theorem WordRoundTrip.writePdl : WordRoundTrip.Statement .writePdl := by unfold WordRoundTrip.Statement; decide
theorem WordRoundTrip.writeVct : WordRoundTrip.Statement .writeVct := by unfold WordRoundTrip.Statement; decide
theorem WordRoundTrip.writeVt : WordRoundTrip.Statement .writeVt := by unfold WordRoundTrip.Statement; decide
theorem WordRoundTrip.writeRsid : WordRoundTrip.Statement .writeRsid := by unfold WordRoundTrip.Statement; decide
theorem WordRoundTrip.writeRrsid : WordRoundTrip.Statement .writeRrsid := by unfold WordRoundTrip.Statement; decide
theorem WordRoundTrip.writeFm : WordRoundTrip.Statement .writeFm := by unfold WordRoundTrip.Statement; decide
theorem WordRoundTrip.vsizeAst : WordRoundTrip.Statement .vsizeAst := by unfold WordRoundTrip.Statement; decide
theorem WordRoundTrip.vsizeAl : WordRoundTrip.Statement .vsizeAl := by unfold WordRoundTrip.Statement; decide
theorem WordRoundTrip.vsizeToff : WordRoundTrip.Statement .vsizeToff := by unfold WordRoundTrip.Statement; decide
theorem WordRoundTrip.vsizeTsn : WordRoundTrip.Statement .vsizeTsn := by unfold WordRoundTrip.Statement; decide
theorem WordRoundTrip.vsizeCvo : WordRoundTrip.Statement .vsizeCvo := by unfold WordRoundTrip.Statement; decide
theorem WordRoundTrip.vsizeCvoraw : WordRoundTrip.Statement .vsizeCvoraw := by unfold WordRoundTrip.Statement; decide
theorem WordRoundTrip.vsizePdl : WordRoundTrip.Statement .vsizePdl := by unfold WordRoundTrip.Statement; decide
theorem WordRoundTrip.vsizeVct : WordRoundTrip.Statement .vsizeVct := by unfold WordRoundTrip.Statement; decide
theorem WordRoundTrip.vsizeVt : WordRoundTrip.Statement .vsizeVt := by unfold WordRoundTrip.Statement; decide
theorem WordRoundTrip.vsizeRsid : WordRoundTrip.Statement .vsizeRsid := by unfold WordRoundTrip.Statement; decide
theorem WordRoundTrip.vsizeRrsid : WordRoundTrip.Statement .vsizeRrsid := by unfold WordRoundTrip.Statement; decide
theorem WordRoundTrip.vsizeFm : WordRoundTrip.Statement .vsizeFm := by unfold WordRoundTrip.Statement; decide
theorem WordRoundTrip.vp9lid : WordRoundTrip.Statement .vp9lid := by unfold WordRoundTrip.Statement; decide
theorem WordRoundTrip.setkeyOut : WordRoundTrip.Statement .setkeyOut := by unfold WordRoundTrip.Statement; decide
theorem WordRoundTrip.setkeyIn : WordRoundTrip.Statement .setkeyIn := by unfold WordRoundTrip.Statement; decide
theorem WordRoundTrip.encrypt : WordRoundTrip.Statement .encrypt := by unfold WordRoundTrip.Statement; decide
theorem WordRoundTrip.decrypt : WordRoundTrip.Statement .decrypt := by unfold WordRoundTrip.Statement; decide
theorem WordRoundTrip.overhead : WordRoundTrip.Statement .overhead := by unfold WordRoundTrip.Statement; decide

end Sys2Proof.Laws
end

