-- ==== Sys2Proof/Tests/Slice0.lean ====
section
/-! SUPPORT. Small tests: the parameter checks refuse what they should, words decode, each command does on the vectors of
spec/95_test_vectors.md what that file says, and every statement with hypotheses has a state that meets them. -/

namespace Sys2Proof.Tests

set_option maxRecDepth 4000

open Sys2Proof.Machine

/-! ## Building small states -/

/-- A port as after reset. -/
def blank : Port := Port.reset

/-- A running block whose one port is p. -/
def on (p : Port) : State := { State.reset with ports := [p] }

/-- The value registers from v[0] up. -/
def vals (xs : List Word) : Vector (Option Word) 8 := Vector.ofFn fun i => xs[i.val]?

/-- The bytes of SB from SB<0> up. -/
def bytes (xs : List Byte) : Vector (Option Byte) 16 := Vector.ofFn fun i => xs[i.val]?

/-- A port with IB. -/
def given (ib : List Byte) : Port := { blank with ib := ib }

/-- A port with value registers and OLEN. -/
def holding (xs : List Word) (olen : Word) : Port := { blank with v := vals xs, olen := some olen }

/-- A port with a StreamId and OLEN. -/
def naming (xs : List Byte) (n : BitVec 5) (olen : Word) : Port :=
  { blank with sb := bytes xs, slen := some n, olen := some olen }

/-- A direction keyed with suite 0x0001. -/
def keyed (token : Nat) : KeyState := ⟨true, some 0x0001#16, some 10#8, some ⟨token⟩⟩

/-- Both directions keyed, with the given answers of the engine. -/
def secured (draw : EngineDraw) (p : Port) : State := { on p with keyOut := keyed 1, keyIn := keyed 2, draw := draw }

/-- Packet A of spec/95_test_vectors.md 2.14 with the given capacity. -/
def packetA (cap : BitVec 32) : PacketView :=
  ⟨some 1#1, some 0x60#7, some 0x1234#16, some 0xDEADBEEF#32, some 0x11223344#32, some [1#8, 2#8, 3#8, 4#8, 5#8],
    some cap⟩

/-- The OHB of packet A. -/
def ohbA : List Byte := [0xE0#8, 0x12#8, 0x34#8, 0xDE#8, 0xAD#8, 0xBE#8, 0xEF#8, 0x11#8, 0x22#8, 0x33#8, 0x44#8]

/-- The cleartext buffer of packet A, as ENCRYPT hands it to the engine. -/
def bufA : List Byte := [0x80#8] ++ ohbA ++ [1#8, 2#8, 3#8, 4#8, 5#8]

/-- The fake engine's tag. -/
def tag : List Byte := List.replicate 10 0xEE#8

/-- The answers of the fake engine for packet A. -/
def fake : EngineDraw := ⟨some ⟨7⟩, some (⟨1⟩, bufA ++ tag), .done ⟨2⟩ bufA⟩

/-! ## Reading results -/

/-- The next state of an answer. -/
def nextOf : Answer → Option State
  | .next t => some t
  | _ => none

/-- The issuing port after a command. -/
def after (i : Instr) (s : State) : Option Port := (nextOf (exec i s)).bind State.port?

/-- A value read from the issuing port after a command, and STATUS. -/
def result {α : Type} (i : Instr) (p : Port) (f : Port → α) : Option (α × Option (BitVec 8)) :=
  (after i (on p)).map fun q => (f q, q.status)

/-- FAULT and FCMD after a command. -/
def faultOf (i : Instr) (s : State) : Option (BitVec 16 × Option CmdWord) :=
  (nextOf (exec i s)).map fun t => (t.fault, t.fcmd)

/-! ## The laws of the parameters (spec/00_scope.md R12): each check refuses a record that breaks it -/

theorem test_params_spec_lawful : Params.spec.Lawful := by decide
theorem test_ceiling_refused : ¬ ({ Params.spec with pdlMaxMs := 40960 } : Params).CeilingFits := by decide
theorem test_zero_granularity_refused : ¬ ({ Params.spec with pdlG := 0 } : Params).GranularityFits := by decide
theorem test_wide_granularity_refused : ¬ ({ Params.spec with pdlG := 524417 } : Params).GranularityFits := by decide
theorem test_sentinel_refused : ¬ ({ Params.spec with noTemporalIdx := 7#8 } : Params).SentinelIsNoLayer := by decide
theorem test_vct_count_refused : ¬ ({ Params.spec with vctCount := 257 } : Params).ContentTypeFits := by decide
theorem test_three_suites_refused :
    ¬ ({ Params.spec with suites := Params.spec.suites.tail } : Params).SuitesDiffer := by decide
theorem test_repeated_suite_refused :
    ¬ ({ Params.spec with suites := List.replicate 4 ⟨1#16, 30, 10#8⟩ } : Params).SuitesDiffer := by decide
theorem test_ohb_size_refused : ¬ ({ Params.spec with ohbSize := 7 } : Params).OhbFits := by decide
theorem test_no_port_refused : ¬ ({ Params.spec with nports := 0 } : Params).HasPort := by decide
/-- A command has no operand, so none is ill formed. -/
theorem test_command_well_formed : Instr.parseAst.wellFormed = true := by decide

/-- The value column of R12. -/
theorem test_params_spec_values :
    Params.spec.ohbSize = 11 ∧ Params.spec.versionByte = 0x80#8 ∧ Params.spec.pdlG = 10 ∧
    Params.spec.pdlMaxMs = 4095 * Params.spec.pdlG ∧ Params.spec.vctCount = 2 ∧ Params.spec.noTemporalIdx = 0xFF#8 ∧
    Params.spec.noSpatialIdx = 0xFF#8 ∧ Params.spec.noTl0PicIdx = 0xFF#8 ∧ Params.spec.rsidMax.val = 16 ∧
    Params.spec.replayWindow = 1024 ∧ Params.spec.allowRepeat = true ∧ Params.spec.nports = 1 := by decide

/-! ## Decoding: the word of every command, written out field by field as CLASS_OP_ARG (spec/30_encoding.md R59 to R65) -/

theorem test_decode_parse :
    decode 0b0000_0000_0000_0001#16 = .command .parseAst ∧ decode 0b0000_0000_0000_0010#16 = .command .parseAl ∧
    decode 0b0000_0000_0000_0011#16 = .command .parseToff ∧ decode 0b0000_0000_0000_0100#16 = .command .parseTsn ∧
    decode 0b0000_0000_0000_0101#16 = .command .parseCvo ∧ decode 0b0000_0000_0000_0110#16 = .command .parseCvoraw ∧
    decode 0b0000_0000_0000_0111#16 = .command .parsePdl ∧ decode 0b0000_0000_0000_1000#16 = .command .parseVct ∧
    decode 0b0000_0000_0000_1001#16 = .command .parseVt ∧ decode 0b0000_0000_0000_1010#16 = .command .parseRsid ∧
    decode 0b0000_0000_0000_1011#16 = .command .parseRrsid ∧ decode 0b0000_0000_0000_1100#16 = .command .parseFm := by
  decide
theorem test_decode_write :
    decode 0b0000_0001_0000_0001#16 = .command .writeAst ∧ decode 0b0000_0001_0000_0010#16 = .command .writeAl ∧
    decode 0b0000_0001_0000_0011#16 = .command .writeToff ∧ decode 0b0000_0001_0000_0100#16 = .command .writeTsn ∧
    decode 0b0000_0001_0000_0101#16 = .command .writeCvo ∧ decode 0b0000_0001_0000_0110#16 = .command .writeCvoraw ∧
    decode 0b0000_0001_0000_0111#16 = .command .writePdl ∧ decode 0b0000_0001_0000_1000#16 = .command .writeVct ∧
    decode 0b0000_0001_0000_1001#16 = .command .writeVt ∧ decode 0b0000_0001_0000_1010#16 = .command .writeRsid ∧
    decode 0b0000_0001_0000_1011#16 = .command .writeRrsid ∧ decode 0b0000_0001_0000_1100#16 = .command .writeFm := by
  decide
theorem test_decode_vsize :
    decode 0b0000_0010_0000_0001#16 = .command .vsizeAst ∧ decode 0b0000_0010_0000_0010#16 = .command .vsizeAl ∧
    decode 0b0000_0010_0000_0011#16 = .command .vsizeToff ∧ decode 0b0000_0010_0000_0100#16 = .command .vsizeTsn ∧
    decode 0b0000_0010_0000_0101#16 = .command .vsizeCvo ∧ decode 0b0000_0010_0000_0110#16 = .command .vsizeCvoraw ∧
    decode 0b0000_0010_0000_0111#16 = .command .vsizePdl ∧ decode 0b0000_0010_0000_1000#16 = .command .vsizeVct ∧
    decode 0b0000_0010_0000_1001#16 = .command .vsizeVt ∧ decode 0b0000_0010_0000_1010#16 = .command .vsizeRsid ∧
    decode 0b0000_0010_0000_1011#16 = .command .vsizeRrsid ∧ decode 0b0000_0010_0000_1100#16 = .command .vsizeFm := by
  decide
theorem test_decode_vp9lid_and_wrapper :
    decode 0b0000_0011_0000_1100#16 = .command .vp9lid ∧ decode 0b0001_0000_0000_0000#16 = .command .setkeyOut ∧
    decode 0b0001_0000_0000_0001#16 = .command .setkeyIn ∧ decode 0b0001_0001_0000_0000#16 = .command .encrypt ∧
    decode 0b0001_0010_0000_0000#16 = .command .decrypt ∧ decode 0b0001_0011_0000_0000#16 = .command .overhead := by
  decide
/-- spec/95_test_vectors.md 2.1: the words that are no command. -/
theorem test_decode_rejects :
    (decode 0x0000#16).toOption = none ∧ (decode 0x0100#16).toOption = none ∧ (decode 0x0200#16).toOption = none ∧
    (decode 0x000D#16).toOption = none ∧ (decode 0x01FF#16).toOption = none ∧ (decode 0x0300#16).toOption = none ∧
    (decode 0x030B#16).toOption = none ∧ (decode 0x030D#16).toOption = none ∧ (decode 0x0401#16).toOption = none ∧
    (decode 0x0F0C#16).toOption = none ∧ (decode 0x1002#16).toOption = none ∧ (decode 0x1101#16).toOption = none ∧
    (decode 0x1201#16).toOption = none ∧ (decode 0x1301#16).toOption = none ∧ (decode 0x1400#16).toOption = none ∧
    (decode 0x2000#16).toOption = none ∧ (decode 0xFFFF#16).toOption = none := by decide
theorem test_rejected_by_name :
    decode 0x2000#16 = .rejected .reservedClass ∧ decode 0x1400#16 = .rejected .reservedOp ∧
    decode 0x01FF#16 = .rejected .reservedType ∧ decode 0x030B#16 = .rejected .vp9lidType ∧
    decode 0x1002#16 = .rejected .reservedArg := by decide
theorem test_table_word : decodeTableWord 16 0x1100 = some .encrypt ∧ decodeTableWord 16 0x2000 = none := by decide
/-- The word placed by withFetchWord is the next command, here OVERHEAD on a block that is not keyed (R135). -/
theorem test_fetch_word :
    (nextOf (step (State.reset.withFetchWord 16 0x1300))).map (fun t => t.ports.map fun q => (q.res, q.status)) =
    some [(some 0#32, some 0#8)] := by decide

/-! ## Commands, on vectors of spec/95_test_vectors.md (the part is named in each comment) -/

/-- 2.2 -/
theorem test_parseAst :
    result .parseAst (given [0x12#8, 0x34#8, 0x56#8]) (·.v.get 0) =
    some (some 0x123456#32, some 0#8) := by decide
/-- 2.2: a PARSE that fails writes no value register. -/
theorem test_parseAst_short :
    result .parseAst (given [0x12#8, 0x34#8]) (·.v.get 0) =
    some (none, some 1#8) := by decide
/-- W3 -/
theorem test_parseAl :
    result .parseAl (given [0xAA#8]) (fun q => (q.v.get 0, q.v.get 1)) =
    some ((some 1#32, some 42#32), some 0#8) := by decide
/-- 2.4 -/
theorem test_parseToff :
    result .parseToff (given [0x80#8, 0x00#8, 0x00#8]) (·.v.get 0) =
    some (some 0xFF800000#32, some 0#8) := by decide
/-- 2.4 -/
theorem test_parseToff_positive :
    result .parseToff (given [0x7F#8, 0xFF#8, 0xFF#8]) (·.v.get 0) =
    some (some 0x007FFFFF#32, some 0#8) := by decide
/-- 2.5 -/
theorem test_parseTsn :
    result .parseTsn (given [0xBE#8, 0xEF#8]) (·.v.get 0) =
    some (some 0xBEEF#32, some 0#8) := by decide
/-- 2.6 -/
theorem test_parseCvo : result .parseCvo (given [0x0B#8]) (·.v.get 0) =
    some (some 3#32, some 0#8) := by decide
/-- 2.6 -/
theorem test_parseCvoraw :
    result .parseCvoraw (given [0xF0#8]) (·.v.get 0) =
    some (some 0xF0#32, some 0#8) := by decide
/-- 2.7 -/
theorem test_parsePdl :
    result .parsePdl (given [0x01#8, 0x23#8, 0x45#8]) (fun q => (q.v.get 0, q.v.get 1)) =
    some ((some 180#32, some 8370#32), some 0#8) := by decide
/-- 2.7 -/
theorem test_parsePdl_order :
    result .parsePdl (given [0x00#8, 0x10#8, 0x00#8]) (fun q => (q.v.get 0, q.v.get 1)) =
    some ((none, none), some 2#8) := by decide
/-- 2.8 -/
theorem test_parseVct : result .parseVct (given [0x01#8]) (·.v.get 0) =
    some (some 1#32, some 0#8) := by decide
/-- 2.8 -/
theorem test_parseVct_undefined :
    result .parseVct (given [0x02#8]) (·.v.get 0) =
    some (none, some 2#8) := by decide
/-- 2.9 -/
theorem test_parseVt :
    result .parseVt (given [0x12#8, 0x34#8, 0xFF#8, 0xFF#8, 0x00#8, 0x00#8, 0x00#8, 0x00#8, 0x00#8, 0x00#8, 0x00#8, 0x01#8]) (·.v) =
    some (vals [0x1234#32, 0xFFFF#32, 0#32, 0#32, 0#32, 1#32], some 0#8) := by decide
/-- 2.10 -/
theorem test_parseRsid :
    result .parseRsid (given [0x61#8, 0x00#8, 0x62#8]) (fun q => (q.sb, q.slen)) =
    some ((bytes [0x61#8, 0x00#8, 0x62#8], some 3#5), some 0#8) := by decide
/-- 2.10 -/
theorem test_parseRsid_empty :
    result .parseRsid (given []) (fun q => (q.sb, q.slen)) =
    some ((bytes [], none), some 2#8) := by decide
/-- P5 -/
theorem test_parseRrsid :
    result .parseRrsid (given [0x72#8, 0x31#8]) (fun q => (q.sb, q.slen)) =
    some ((bytes [0x72#8, 0x31#8], some 2#5), some 0#8) := by decide
/-- 2.11 -/
theorem test_parseFm :
    result .parseFm (given [0xDD#8, 0x21#8, 0x7F#8]) (·.v) =
    some (vals [1#32, 1#32, 0#32, 1#32, 1#32, 5#32, 0x21#32, 0x7F#32], some 0#8) := by decide
/-- 2.11: bits 3:0 of the one-byte form are ignored. -/
theorem test_parseFm_one_byte :
    result .parseFm (given [0x1F#8]) (·.v) =
    some (vals [0#32, 0#32, 0#32, 1#32, 0#32, 0#32, 0#32, 0#32], some 0#8) := by decide
/-- W1 -/
theorem test_writeAst :
    result .writeAst (holding [0x123456#32] 3#32) (·.ob) =
    some ([0x12#8, 0x34#8, 0x56#8], some 0#8) := by decide
/-- 2.2 -/
theorem test_writeAst_size :
    faultOf .writeAst (on (holding [0x123456#32] 4#32)) = some (0x0031#16, some 0x0101#16) := by decide
/-- W2 -/
theorem test_writeAl :
    result .writeAl (holding [1#32, 0x2A#32] 1#32) (·.ob) =
    some ([0xAA#8], some 0#8) := by decide
/-- 2.3 -/
theorem test_writeAl_contract :
    faultOf .writeAl (on (holding [0#32, 0x80#32] 1#32)) = some (0x0031#16, some 0x0102#16) := by decide
/-- 2.4 -/
theorem test_writeToff :
    result .writeToff (holding [0xFFFFFF9C#32] 3#32) (·.ob) =
    some ([0xFF#8, 0xFF#8, 0x9C#8], some 0#8) := by decide
/-- 2.4 -/
theorem test_writeToff_contract :
    faultOf .writeToff (on (holding [0xFF7FFFFF#32] 3#32)) = some (0x0031#16, some 0x0103#16) := by decide
/-- 2.5 -/
theorem test_writeTsn :
    result .writeTsn (holding [0xFFFF#32] 2#32) (·.ob) =
    some ([0xFF#8, 0xFF#8], some 0#8) := by decide
/-- 2.6 -/
theorem test_writeCvo : result .writeCvo (holding [2#32] 1#32) (·.ob) =
    some ([0x02#8], some 0#8) := by decide
/-- 2.6 -/
theorem test_writeCvoraw :
    result .writeCvoraw (holding [0xFF#32] 1#32) (·.ob) =
    some ([0xFF#8], some 0#8) := by decide
/-- 2.7 -/
theorem test_writePdl :
    result .writePdl (holding [0x4CE#32, 0x9FF6#32] 3#32) (·.ob) =
    some ([0x07#8, 0xBF#8, 0xFF#8], some 0#8) := by decide
/-- 2.7 -/
theorem test_writePdl_contract :
    faultOf .writePdl (on (holding [0xFFFFFFF6#32, 0#32] 3#32)) = some (0x0031#16, some 0x0107#16) := by decide
/-- 2.8 -/
theorem test_writeVct : result .writeVct (holding [1#32] 1#32) (·.ob) =
    some ([0x01#8], some 0#8) := by decide
/-- 2.9 -/
theorem test_writeVt :
    result .writeVt (holding [0x1234#32, 0#32, 0#32, 0#32, 0#32, 0xABCD#32] 12#32) (·.ob) =
    some ([0x12#8, 0x34#8, 0x00#8, 0x00#8, 0x00#8, 0x00#8, 0x00#8, 0x00#8, 0x00#8, 0x00#8, 0xAB#8, 0xCD#8], some 0#8) := by
  decide
/-- 2.10 -/
theorem test_writeRsid :
    result .writeRsid (naming [0x61#8, 0x00#8, 0x62#8] 3#5 3#32) (·.ob) =
    some ([0x61#8, 0x00#8, 0x62#8], some 0#8) := by decide
/-- 2.10 -/
theorem test_writeRsid_zero_led :
    faultOf .writeRsid (on (naming [0x00#8, 0x61#8] 2#5 2#32)) = some (0x0031#16, some 0x010A#16) := by decide
/-- 2.10 -/
theorem test_writeRrsid :
    result .writeRrsid (naming [0x72#8, 0x31#8] 2#5 2#32) (·.ob) =
    some ([0x72#8, 0x31#8], some 0#8) := by decide
/-- 2.11: the sentinel temporal layer is emitted as 7. -/
theorem test_writeFm :
    result .writeFm (holding [1#32, 1#32, 1#32, 1#32, 0#32, 0xFF#32, 3#32, 0#32] 3#32) (·.ob) =
    some ([0xF7#8, 0x03#8, 0x00#8], some 0#8) := by decide
/-- 2.11 -/
theorem test_writeFm_one_byte :
    result .writeFm (holding [1#32, 0#32, 0#32, 0#32, 0#32, 0xFF#32, 0xFF#32, 0xFF#32] 1#32) (·.ob) =
    some ([0x80#8], some 0#8) := by decide
theorem test_vsizeAst : result .vsizeAst blank (·.res) = some (some 3#32, some 0#8) := by decide
theorem test_vsizeAl : result .vsizeAl blank (·.res) = some (some 1#32, some 0#8) := by decide
theorem test_vsizeToff : result .vsizeToff blank (·.res) = some (some 3#32, some 0#8) := by decide
theorem test_vsizeTsn : result .vsizeTsn blank (·.res) = some (some 2#32, some 0#8) := by decide
theorem test_vsizeCvo : result .vsizeCvo blank (·.res) = some (some 1#32, some 0#8) := by decide
theorem test_vsizeCvoraw : result .vsizeCvoraw blank (·.res) = some (some 1#32, some 0#8) := by decide
theorem test_vsizePdl : result .vsizePdl blank (·.res) = some (some 3#32, some 0#8) := by decide
theorem test_vsizeVct : result .vsizeVct blank (·.res) = some (some 1#32, some 0#8) := by decide
theorem test_vsizeVt : result .vsizeVt blank (·.res) = some (some 12#32, some 0#8) := by decide
theorem test_vsizeRsid : result .vsizeRsid (naming [] 20#5 0#32) (·.res) = some (some 20#32, some 0#8) := by decide
theorem test_vsizeRrsid : result .vsizeRrsid (naming [] 2#5 0#32) (·.res) = some (some 2#32, some 0#8) := by decide
theorem test_vsizeFm :
    result .vsizeFm (holding [0#32, 0#32, 0#32, 0#32, 0#32, 0x100#32, 0#32, 0#32] 0#32) (·.res) = some (some 3#32, some 0#8) := by
  decide
/-- 2.11 -/
theorem test_vsizeFm_sentinels :
    result .vsizeFm (holding [0#32, 0#32, 0#32, 0#32, 0#32, 0xFF#32, 0xFF#32, 0xFF#32] 0#32) (·.res) =
    some (some 1#32, some 0#8) := by decide
/-- 2.12 -/
theorem test_vp9lid_contract :
    faultOf .vp9lid (on (holding [0x100#32, 0#32, 0#32] 0#32)) = some (0x0031#16, some 0x030C#16) := by decide
/-- 2.12, with the mapping left open -/
theorem test_vp9lid :
    result .vp9lid (holding [1#32, 0#32, 1#32] 0#32) (·.res) =
    some (some ((Config.vp9LayerIdMap 1#8 0#1 1#1).setWidth 32), some 0#8) := rfl
/-- 2.13 -/
theorem test_setkeyOut :
    (nextOf (exec .setkeyOut
      { on { given (List.replicate 30 0#8) with v := vals [1#32] } with draw := fake })).map (·.keyOut) =
    some ⟨true, some 1#16, some 10#8, some ⟨7⟩⟩ := by decide
/-- 2.13 -/
theorem test_setkeyOut_length :
    (after .setkeyOut (on { given (List.replicate 29 0#8) with v := vals [1#32] })).map (·.status) = some (some 4#8) := by
  decide
/-- 2.13 -/
theorem test_setkeyIn :
    (nextOf (exec .setkeyIn
      { on { given (List.replicate 28 0#8) with v := vals [7#32] } with draw := fake })).map (·.keyIn) =
    some ⟨true, some 7#16, some 16#8, some ⟨7⟩⟩ := by decide
/-- 2.14: packet A with an exact fit. -/
theorem test_encrypt :
    (after .encrypt (secured fake { blank with pkt := packetA 26#32 })).map (fun q => (q.pkt.pay, q.status)) =
    some (some (ohbA ++ [1#8, 2#8, 3#8, 4#8, 5#8] ++ tag), some 0#8) := by decide
/-- 2.14: the buffer the engine is asked to protect. -/
theorem test_encrypt_question :
    (nextOf (exec .encrypt (secured fake { blank with pkt := packetA 26#32 }))).map (·.asked) =
    some [.protect ⟨1⟩ bufA] := by decide
/-- 2.15 -/
theorem test_decrypt :
    (after .decrypt (secured fake (given (bufA.tail ++ tag)))).map (fun q => (q.ib, q.status)) =
    some ([1#8, 2#8, 3#8, 4#8, 5#8], some 0#8) := by decide
/-- 2.15: the engine answers 11 bytes. -/
theorem test_decrypt_short_answer :
    faultOf .decrypt
      (secured { fake with unprotect := .done ⟨2⟩ ohbA } (given (bufA.tail ++ tag))) =
    some (0x0041#16, some 0x1200#16) := by decide
/-- 2.16 -/
theorem test_overhead :
    (after .overhead (secured fake blank)).map (fun q => (q.res, q.status)) = some (some 21#32, some 0#8) := by decide
/-- 2.16: KS[OUT] = 0 even with KS[IN] = 1. -/
theorem test_overhead_in_only :
    (after .overhead { on blank with keyIn := keyed 2 }).map (fun q => (q.res, q.status)) =
    some (some 0#32, some 0#8) := by decide

/-! ## Halting and reset (spec/95_test_vectors.md 2.17) -/

/-- A fault; then a command, a word that is none, or no action at all: no step is possible. -/
theorem test_halted_is_stuck :
    step { on (given [0xAA#8]) with fault := 0x0031#16, inbox := [.writeCMD 0 0x0002#16 fake] } = .fault .halted ∧
    step { on blank with fault := 0x0031#16, inbox := [.writeCMD 0 0xFFFF#16 fake] } = .fault .halted ∧
    step { on blank with fault := 0x0031#16 } = .fault .halted := ⟨rfl, rfl, rfl⟩
/-- The command before a reset performs nothing, the reset clears the fault. -/
theorem test_halted_until_reset :
    (nextOf (step { secured fake (given [0xAA#8]) with
      fault := 0x0031#16, inbox := [.writeCMD 0 0x0002#16 fake, .reset, .writeCMD 0 0x1300#16 fake] })).map
      (fun t => (t.ports, t.fault, t.keyOut, t.inbox)) =
    some ([blank], 0#16, KeyState.reset, [.writeCMD 0 0x1300#16 fake]) := by decide
theorem test_reset_destroys_both_sessions :
    (nextOf (step { secured fake blank with inbox := [.reset] })).map (·.asked) = some [.destroy ⟨1⟩, .destroy ⟨2⟩] := by
  decide

/-! ## Witnesses: for every statement with hypotheses, states and operands that meet them, one line for each clause -/

/-- The block with port p is ready for a command, and c holds. -/
abbrev Case (p : Port) (c : Prop) : Prop := (on p).Ready p ∧ c

/-- The same with both directions keyed and the fake engine's answers. -/
abbrev SecureCase (draw : EngineDraw) (p : Port) (c : Prop) : Prop := (secured draw p).Ready p ∧ c

theorem witness_StepRunsTheDecodedCommand :
    ({ on blank with inbox := [.writeCMD 0 0x1300#16 fake] } : State).inbox = .writeCMD 0 0x1300#16 fake :: [] ∧
    0 < (on blank).ports.length ∧ ¬ (on blank).halted ∧ decode 0x1300#16 = .command .overhead := by decide
theorem witness_IllegalWordRaisesIllegalCommand :
    ({ on blank with inbox := [.writeCMD 0 0x030D#16 fake] } : State).inbox = .writeCMD 0 0x030D#16 fake :: [] ∧
    0 < (on blank).ports.length ∧ ¬ (on blank).halted ∧ ∀ i, encode i ≠ 0x030D#16 := by
  refine ⟨rfl, by decide, by decide, fun i => ?_⟩
  cases i <;> decide
theorem witness_HaltedBlockDoesNothingUntilReset :
    ({ on blank with fault := 0x0031#16 } : State).halted ∧
    HostAction.reset ∉ ({ on blank with fault := 0x0031#16 } : State).inbox ∧
    HostAction.reset ∉ [.writeCMD 0 0x0001#16 fake] ∧
    ({ on blank with fault := 0x0031#16, inbox := [.writeCMD 0 0x0001#16 fake, .reset] } : State).inbox =
      [.writeCMD 0 0x0001#16 fake] ++ .reset :: [] ∧
    ∃ t, step { on blank with fault := 0x0031#16, inbox := [.writeCMD 0 0x0001#16 fake, .reset] } = .next t :=
  ⟨by decide, by decide, by decide, rfl, _, rfl⟩
/-- The one port is there, whichever action stands first; and the inbox may be empty. -/
theorem witness_HostWritesOneRegister :
    ¬ (on blank).halted ∧ (on blank).inbox = [] ∧ ∀ a : HostAction,
      ({ on blank with inbox := [a] } : State).ports[0]? = some blank ∧
      ({ on blank with inbox := [a] } : State).inbox = a :: [] := ⟨by decide, rfl, fun _ => ⟨rfl, rfl⟩⟩
theorem witness_CommandOnAbsentPortIsRefused :
    ({ on blank with inbox := [.writeCMD 1 0x0001#16 fake] } : State).inbox = .writeCMD 1 0x0001#16 fake :: [] ∧
    ¬ (on blank).halted ∧ (on blank).ports.length ≤ 1 := by decide
theorem witness_ResetDestroysSessionsAndClears :
    ({ secured fake blank with inbox := [.reset] } : State).inbox = .reset :: [] := rfl
theorem witness_ResetValues : blank ∈ State.reset.ports := by decide

theorem witness_ParseAst :
    Case (given [0xFF#8, 0xFF#8, 0xFF#8]) ((given [0xFF#8, 0xFF#8, 0xFF#8]).ib = [0xFF#8, 0xFF#8, 0xFF#8]) ∧
    Case (given [1#8, 2#8]) ((given [1#8, 2#8]).ib.length ≠ 3) := by decide
theorem witness_ParseAl :
    Case (given [0xFF#8]) ((given [0xFF#8]).ib = [0xFF#8]) ∧ Case (given []) ((given []).ib.length ≠ 1) := by decide
theorem witness_ParseToff :
    Case (given [0x80#8, 0#8, 0#8]) ((given [0x80#8, 0#8, 0#8]).ib = [0x80#8, 0#8, 0#8]) ∧
    Case (given [1#8]) ((given [1#8]).ib.length ≠ 3) := by decide
theorem witness_ParseTsn :
    Case (given [0xFF#8, 0xFF#8]) ((given [0xFF#8, 0xFF#8]).ib = [0xFF#8, 0xFF#8]) ∧
    Case (given [1#8, 2#8, 3#8]) ((given [1#8, 2#8, 3#8]).ib.length ≠ 2) := by decide
theorem witness_ParseCvo :
    Case (given [0xFF#8]) ((given [0xFF#8]).ib = [0xFF#8]) ∧ Case (given []) ((given []).ib.length ≠ 1) := by decide
theorem witness_ParseCvoraw :
    Case (given [0xFF#8]) ((given [0xFF#8]).ib = [0xFF#8]) ∧ Case (given []) ((given []).ib.length ≠ 1) := by decide
theorem witness_ParsePdl :
    Case (given [0#8, 0x10#8, 0#8]) ((given [0#8, 0x10#8, 0#8]).ib = [0#8, 0x10#8, 0#8] ∧
      1 = (0#8).toNat * 16 + (0x10#8).toNat / 16 ∧ 0 = (0x10#8).toNat % 16 * 256 + (0#8).toNat ∧ 0 < 1) ∧
    Case (given [0#8, 0x10#8, 1#8]) ((given [0#8, 0x10#8, 1#8]).ib = [0#8, 0x10#8, 1#8] ∧
      1 = (0#8).toNat * 16 + (0x10#8).toNat / 16 ∧ 1 = (0x10#8).toNat % 16 * 256 + (1#8).toNat ∧ 1 ≤ 1) ∧
    Case (given [0#8, 0x10#8]) ((given [0#8, 0x10#8]).ib.length ≠ 3) := by decide
theorem witness_ParseVct :
    Case (given [2#8]) ((given [2#8]).ib = [2#8] ∧ (on (given [2#8])).params.vctCount ≤ (2#8).toNat) ∧
    Case (given [1#8]) ((given [1#8]).ib = [1#8] ∧ (1#8).toNat < (on (given [1#8])).params.vctCount) ∧
    Case (given []) ((given []).ib.length ≠ 1) := by decide
theorem witness_ParseVt :
    Case (given [0#8, 1#8, 0#8, 2#8, 0#8, 3#8, 0#8, 4#8, 0#8, 5#8, 0#8, 6#8])
      ((given [0#8, 1#8, 0#8, 2#8, 0#8, 3#8, 0#8, 4#8, 0#8, 5#8, 0#8, 6#8]).ib =
        [0#8, 1#8, 0#8, 2#8, 0#8, 3#8, 0#8, 4#8, 0#8, 5#8, 0#8, 6#8]) ∧
    Case (given [1#8]) ((given [1#8]).ib.length ≠ 12) := by decide
theorem witness_ParseStreamId :
    Instr.parseRsid ∈ [Instr.parseRsid, Instr.parseRrsid] ∧ Instr.parseRrsid ∈ [Instr.parseRsid, Instr.parseRrsid] ∧
    Case (given (List.replicate 17 0x41#8))
      ((on blank).params.rsidMax.val < (given (List.replicate 17 0x41#8)).ib.length) ∧
    Case (given []) ((given []).ib = []) ∧
    Case (given [0#8, 0x61#8]) ((given [0#8, 0x61#8]).ib = 0#8 :: [0x61#8] ∧
      (given [0#8, 0x61#8]).ib.length ≤ (on blank).params.rsidMax.val) ∧
    Case (given (List.replicate 16 0x41#8)) ((given (List.replicate 16 0x41#8)).ib = 0x41#8 :: List.replicate 15 0x41#8 ∧
      (given (List.replicate 16 0x41#8)).ib.length ≤ (on blank).params.rsidMax.val ∧ 0x41#8 ≠ 0#8) := by decide
theorem witness_ParseFm :
    Case (given [0xE0#8]) ((given [0xE0#8]).ib = [0xE0#8]) ∧
    Case (given [0xDD#8, 0x21#8, 0x7F#8]) ((given [0xDD#8, 0x21#8, 0x7F#8]).ib = [0xDD#8, 0x21#8, 0x7F#8]) ∧
    Case (given [0#8, 0#8]) ((given [0#8, 0#8]).ib.length ≠ 1 ∧ (given [0#8, 0#8]).ib.length ≠ 3) := by decide

/-- The three cases of OLEN at the end of a WRITE: no value, another size, the size. -/
theorem witness_OLEN (size : Nat) (h : size < 2 ^ 32 - 1) :
    blank.olen = none ∧
    (∃ n : Word, n.toNat ≠ size ∧ ({ blank with olen := some n } : Port).olen = some n) ∧
    ∃ n : Word, n.toNat = size ∧ ({ blank with olen := some n } : Port).olen = some n :=
  ⟨rfl, ⟨BitVec.ofNat 32 (size + 1), by simp; omega, rfl⟩, ⟨BitVec.ofNat 32 size, by simp; omega, rfl⟩⟩
theorem witness_WriteAst :
    Case blank (blank.v.get 0 = none) ∧
    Case (holding [0x01000000#32] 3#32)
      ((holding [0x01000000#32] 3#32).v.get 0 = some 0x01000000#32 ∧ 0x00FFFFFF < (0x01000000#32).toNat) ∧
    Case (holding [0x00FFFFFF#32] 3#32)
      ((holding [0x00FFFFFF#32] 3#32).v.get 0 = some 0x00FFFFFF#32 ∧ (0x00FFFFFF#32).toNat ≤ 0x00FFFFFF) := by decide
theorem witness_WriteAl :
    Case (holding [1#32] 1#32) ((holding [1#32] 1#32).v.get 1 = none) ∧
    Case (holding [2#32, 127#32] 1#32) ((holding [2#32, 127#32] 1#32).v.get 0 = some 2#32 ∧
      (holding [2#32, 127#32] 1#32).v.get 1 = some 127#32 ∧ 1 < (2#32).toNat) ∧
    Case (holding [1#32, 128#32] 1#32) ((holding [1#32, 128#32] 1#32).v.get 0 = some 1#32 ∧
      (holding [1#32, 128#32] 1#32).v.get 1 = some 128#32 ∧ 127 < (128#32).toNat) ∧
    Case (holding [1#32, 127#32] 1#32) ((holding [1#32, 127#32] 1#32).v.get 0 = some 1#32 ∧
      (holding [1#32, 127#32] 1#32).v.get 1 = some 127#32 ∧ (1#32).toNat ≤ 1 ∧ (127#32).toNat ≤ 127) := by decide
theorem witness_WriteToff :
    Case blank (blank.v.get 0 = none) ∧
    Case (holding [0xFF7FFFFF#32] 3#32) ((holding [0xFF7FFFFF#32] 3#32).v.get 0 = some 0xFF7FFFFF#32 ∧
      (0xFF7FFFFF#32).toInt < -8388608) ∧
    Case (holding [0x00800000#32] 3#32) ((holding [0x00800000#32] 3#32).v.get 0 = some 0x00800000#32 ∧
      8388607 < (0x00800000#32).toInt) ∧
    Case (holding [0xFF800000#32] 3#32) ((holding [0xFF800000#32] 3#32).v.get 0 = some 0xFF800000#32 ∧
      -8388608 ≤ (0xFF800000#32).toInt ∧ (0xFF800000#32).toInt ≤ 8388607) := by decide
theorem witness_WriteTsn :
    Case blank (blank.v.get 0 = none) ∧
    Case (holding [0x10000#32] 2#32)
      ((holding [0x10000#32] 2#32).v.get 0 = some 0x10000#32 ∧ 0xFFFF < (0x10000#32).toNat) ∧
    Case (holding [0xFFFF#32] 2#32)
      ((holding [0xFFFF#32] 2#32).v.get 0 = some 0xFFFF#32 ∧ (0xFFFF#32).toNat ≤ 0xFFFF) := by decide
theorem witness_WriteCvo :
    Case blank (blank.v.get 0 = none) ∧
    Case (holding [4#32] 1#32) ((holding [4#32] 1#32).v.get 0 = some 4#32 ∧ 3 < (4#32).toNat) ∧
    Case (holding [3#32] 1#32) ((holding [3#32] 1#32).v.get 0 = some 3#32 ∧ (3#32).toNat ≤ 3) := by decide
theorem witness_WriteCvoraw :
    Case blank (blank.v.get 0 = none) ∧
    Case (holding [0x100#32] 1#32) ((holding [0x100#32] 1#32).v.get 0 = some 0x100#32 ∧ 0xFF < (0x100#32).toNat) ∧
    Case (holding [0xFF#32] 1#32) ((holding [0xFF#32] 1#32).v.get 0 = some 0xFF#32 ∧ (0xFF#32).toNat ≤ 0xFF) := by
  decide
theorem witness_WritePdl :
    (on blank).params.CeilingFits ∧ Case (holding [0#32] 3#32) ((holding [0#32] 3#32).v.get 1 = none) ∧
    Case (holding [0xFFFFFFFF#32, 0#32] 3#32) ((holding [0xFFFFFFFF#32, 0#32] 3#32).v.get 0 = some 0xFFFFFFFF#32 ∧
      (holding [0xFFFFFFFF#32, 0#32] 3#32).v.get 1 = some 0#32 ∧ (0xFFFFFFFF#32).toInt < 0) ∧
    Case (holding [1#32, 0#32] 3#32) ((holding [1#32, 0#32] 3#32).v.get 0 = some 1#32 ∧
      (holding [1#32, 0#32] 3#32).v.get 1 = some 0#32 ∧ (0#32).toInt < (1#32).toInt) ∧
    Case (holding [0#32, 40951#32] 3#32) ((holding [0#32, 40951#32] 3#32).v.get 0 = some 0#32 ∧
      (holding [0#32, 40951#32] 3#32).v.get 1 = some 40951#32 ∧ (on blank).params.pdlMaxMs < (40951#32).toInt) ∧
    Case (holding [0#32, 40950#32] 3#32) ((holding [0#32, 40950#32] 3#32).v.get 0 = some 0#32 ∧
      (holding [0#32, 40950#32] 3#32).v.get 1 = some 40950#32 ∧ 0 ≤ (0#32).toInt ∧
      (0#32).toInt ≤ (40950#32).toInt ∧ (40950#32).toInt ≤ (on blank).params.pdlMaxMs ∧
      0 = (0#32).toNat / (on blank).params.pdlG ∧ 4095 = (40950#32).toNat / (on blank).params.pdlG) := by decide
theorem witness_WriteVct :
    Case blank (blank.v.get 0 = none) ∧
    Case (holding [2#32] 1#32) ((holding [2#32] 1#32).v.get 0 = some 2#32 ∧
      (on blank).params.vctCount ≤ (2#32).toNat) ∧
    Case (holding [1#32] 1#32) ((holding [1#32] 1#32).v.get 0 = some 1#32 ∧
      (1#32).toNat < (on blank).params.vctCount) := by decide
/-- Six deltas in v[0] to v[5]. -/
abbrev Six (p : Port) (d5 : Word) : Prop :=
  p.v.get 0 = some 0#32 ∧ p.v.get 1 = some 0#32 ∧ p.v.get 2 = some 0#32 ∧ p.v.get 3 = some 0#32 ∧
  p.v.get 4 = some 0#32 ∧ p.v.get 5 = some d5
theorem witness_WriteVt :
    Case (holding [0#32, 0#32, 0#32, 0#32, 0#32] 12#32)
      ((5 : Fin 8).val < 6 ∧ (holding [0#32, 0#32, 0#32, 0#32, 0#32] 12#32).v.get 5 = none) ∧
    Case (holding [0#32, 0#32, 0#32, 0#32, 0#32, 0x10000#32] 12#32)
      (Six (holding [0#32, 0#32, 0#32, 0#32, 0#32, 0x10000#32] 12#32) 0x10000#32 ∧ 0xFFFF < (0x10000#32).toNat) ∧
    Case (holding [0#32, 0#32, 0#32, 0#32, 0#32, 0xFFFF#32] 12#32)
      (Six (holding [0#32, 0#32, 0#32, 0#32, 0#32, 0xFFFF#32] 12#32) 0xFFFF#32 ∧
        (0#32).toNat ≤ 0xFFFF ∧ (0xFFFF#32).toNat ≤ 0xFFFF) := by decide
theorem witness_WriteStreamId :
    Instr.writeRsid ∈ [Instr.writeRsid, Instr.writeRrsid] ∧ Instr.writeRrsid ∈ [Instr.writeRsid, Instr.writeRrsid] ∧
    Case blank (blank.slen = none) ∧
    Case (naming [] 0#5 0#32) ((naming [] 0#5 0#32).slen = some 0#5 ∧ (0#5).toNat = 0) ∧
    Case (naming [] 17#5 0#32) ((naming [] 17#5 0#32).slen = some 17#5 ∧
      (on blank).params.rsidMax.val < (17#5).toNat) ∧
    Case (naming (List.replicate 15 0x41#8) 16#5 16#32)
      ((naming (List.replicate 15 0x41#8) 16#5 16#32).slen = some 16#5 ∧ (16#5).toNat ≠ 0 ∧
        (16#5).toNat ≤ (on blank).params.rsidMax.val ∧
        (15 : Fin 16).val < (16#5).toNat ∧ (naming (List.replicate 15 0x41#8) 16#5 16#32).sb.get 15 = none) ∧
    Case (naming [0#8] 1#5 1#32) ((naming [0#8] 1#5 1#32).slen = some 1#5 ∧ ([0#8] : List Byte).length = (1#5).toNat ∧
      ∀ k : Fin 16, k.val < (1#5).toNat → (naming [0#8] 1#5 1#32).sb.get k = ([0#8] : List Byte)[k.val]?) ∧
    Case (naming [0x61#8, 0x62#8] 2#5 2#32) ((naming [0x61#8, 0x62#8] 2#5 2#32).slen = some 2#5 ∧
      ([0x61#8, 0x62#8] : List Byte).length = (2#5).toNat ∧ (2#5).toNat ≠ 0 ∧
      (2#5).toNat ≤ (on blank).params.rsidMax.val ∧ 0x61#8 ≠ 0#8 ∧
      ∀ k : Fin 16, k.val < (2#5).toNat →
        (naming [0x61#8, 0x62#8] 2#5 2#32).sb.get k = ([0x61#8, 0x62#8] : List Byte)[k.val]?) := by decide
/-- A FrameMarking value with flags f 1 1 1, and OLEN. -/
def marking (f bs tid lid tl0 : Word) (olen : Word) : Port := holding [f, 1#32, 1#32, 1#32, bs, tid, lid, tl0] olen
/-- Its registers, as the statements about FrameMarking name them. -/
abbrev Marks (f bs tid lid tl0 : Word) (olen : Word) : Prop :=
  (marking f bs tid lid tl0 olen).v =
    #v[some f, some 1#32, some 1#32, some 1#32, some bs, some tid, some lid, some tl0]
theorem witness_WriteFm :
    Case (holding [0#32] 1#32) ((holding [0#32] 1#32).v.get 7 = none) ∧
    Case (marking 2#32 0#32 0#32 0#32 0#32 1#32) (Marks 2#32 0#32 0#32 0#32 0#32 1#32 ∧ 1 < (2#32).toNat) ∧
    Case (marking 1#32 0#32 8#32 0#32 0#32 3#32) (Marks 1#32 0#32 8#32 0#32 0#32 3#32 ∧ 7 < (8#32).toNat ∧
      (8#32).toNat ≠ (on blank).params.noTemporalIdx.toNat) ∧
    Case (marking 1#32 0#32 0#32 0x100#32 0#32 3#32) (Marks 1#32 0#32 0#32 0x100#32 0#32 3#32 ∧ 0xFF < (0x100#32).toNat) ∧
    Case (marking 1#32 0#32 0#32 0#32 0x100#32 3#32) (Marks 1#32 0#32 0#32 0#32 0x100#32 3#32 ∧ 0xFF < (0x100#32).toNat) ∧
    Case (marking 1#32 1#32 7#32 0xFF#32 0xFF#32 3#32) (Marks 1#32 1#32 7#32 0xFF#32 0xFF#32 3#32 ∧ (1#32).toNat ≤ 1 ∧
      (7#32).toNat ≤ 7 ∧ (0xFF#32).toNat ≤ 0xFF ∧ (True ↔ (1#32).toNat ≠ 0)) ∧
    Case (marking 1#32 0#32 0xFF#32 0#32 0xFF#32 1#32) (Marks 1#32 0#32 0xFF#32 0#32 0xFF#32 1#32 ∧
      (0xFF#32).toNat = (on blank).params.noTemporalIdx.toNat ∧
      (False ↔ (0#32).toNat ≠ 0 ∨
        ((0xFF#32).toNat ≠ 0 ∧ (0xFF#32).toNat ≠ (on blank).params.noTemporalIdx.toNat) ∨
        ((0#32).toNat ≠ 0 ∧ (0#32).toNat ≠ (on blank).params.noSpatialIdx.toNat) ∨
        ((0xFF#32).toNat ≠ 0 ∧ (0xFF#32).toNat ≠ (on blank).params.noTl0PicIdx.toNat))) := by decide

theorem witness_VsizeOfFixedTypes : Case blank ((Instr.vsizeVt, 12) ∈ fixedSizes) := by decide
theorem witness_VsizeStreamId :
    Instr.vsizeRsid ∈ [Instr.vsizeRsid, Instr.vsizeRrsid] ∧ Instr.vsizeRrsid ∈ [Instr.vsizeRsid, Instr.vsizeRrsid] ∧
    Case blank (blank.slen = none) ∧ Case (naming [] 31#5 0#32) ((naming [] 31#5 0#32).slen = some 31#5) := by decide
/-- v[4] to v[7]. -/
abbrev Layers (p : Port) (bs tid lid tl0 : Word) : Prop :=
  p.v.get 4 = some bs ∧ p.v.get 5 = some tid ∧ p.v.get 6 = some lid ∧ p.v.get 7 = some tl0
theorem witness_VsizeFm :
    Case blank (4 ≤ (7 : Fin 8).val ∧ blank.v.get 7 = none) ∧
    Case (marking 1#32 0#32 0x100#32 0#32 0#32 0#32) (Layers (marking 1#32 0#32 0x100#32 0#32 0#32 0#32) 0#32 0x100#32 0#32 0#32 ∧
      (True ↔ (0x100#32).toNat ≠ 0 ∧ (0x100#32).toNat ≠ (on blank).params.noTemporalIdx.toNat)) ∧
    Case (marking 1#32 0#32 0#32 0#32 0#32 0#32) (Layers (marking 1#32 0#32 0#32 0#32 0#32 0#32) 0#32 0#32 0#32 0#32 ∧
      (False ↔ (0#32).toNat ≠ 0 ∨
        ((0#32).toNat ≠ 0 ∧ (0#32).toNat ≠ (on blank).params.noTemporalIdx.toNat) ∨
        ((0#32).toNat ≠ 0 ∧ (0#32).toNat ≠ (on blank).params.noSpatialIdx.toNat) ∨
        ((0#32).toNat ≠ 0 ∧ (0#32).toNat ≠ (on blank).params.noTl0PicIdx.toNat))) := by decide
/-- v[0] to v[2]. -/
abbrev Three (p : Port) (a b c : Word) : Prop := p.v.get 0 = some a ∧ p.v.get 1 = some b ∧ p.v.get 2 = some c
theorem witness_Vp9lid :
    Case (holding [1#32, 0#32] 0#32) ((holding [1#32, 0#32] 0#32).v.get 2 = none) ∧
    Case (holding [0x100#32, 0#32, 0#32] 0#32) (Three (holding [0x100#32, 0#32, 0#32] 0#32) 0x100#32 0#32 0#32 ∧
      0xFF < (0x100#32).toNat) ∧
    Case (holding [0#32, 2#32, 0#32] 0#32) (Three (holding [0#32, 2#32, 0#32] 0#32) 0#32 2#32 0#32 ∧ 1 < (2#32).toNat) ∧
    Case (holding [0#32, 0#32, 2#32] 0#32) (Three (holding [0#32, 0#32, 2#32] 0#32) 0#32 0#32 2#32 ∧ 1 < (2#32).toNat) ∧
    Case (holding [0xFF#32, 1#32, 1#32] 0#32) (Three (holding [0xFF#32, 1#32, 1#32] 0#32) 0xFF#32 1#32 1#32 ∧
      (0xFF#32).toNat ≤ 0xFF ∧ (1#32).toNat ≤ 1) := by decide

/-- A port that offers n bytes of key and salt for a suite. -/
def keying (suite : Word) (n : Nat) : Port := { given (List.replicate n 0#8) with v := vals [suite] }
theorem witness_SetkeyKeysOneDirection :
    ((on blank).params.suites.map Suite.tag).Nodup ∧
    SecureCase fake blank (((secured fake blank).key .out).ks = true ∧ ((secured fake blank).key .inn).ks = true) ∧
    Case blank (((on blank).key .out).ks = false ∧ ((on blank).key .inn).ks = false ∧ blank.v.get 0 = none) ∧
    Case (keying 0x10001#32 30) ((keying 0x10001#32 30).v.get 0 = some 0x10001#32 ∧
      (on blank).params.suites.all (fun row => row.tag.toNat ≠ (0x10001#32).toNat) = true) ∧
    Case (keying 1#32 29) ((keying 1#32 29).v.get 0 = some 1#32 ∧ ⟨1#16, 30, 10#8⟩ ∈ (on blank).params.suites ∧
      (1#16).toNat = (1#32).toNat ∧ (keying 1#32 29).ib.length ≠ 30) ∧
    Case (keying 8#32 44) ((keying 8#32 44).v.get 0 = some 8#32 ∧ ⟨8#16, 44, 16#8⟩ ∈ (on blank).params.suites ∧
      (8#16).toNat = (8#32).toNat ∧ (keying 8#32 44).ib.length = 44) ∧
    EngineDraw.refused.create = none ∧ fake.create = some ⟨7⟩ := by decide
/-- A port with packet A and the given capacity. -/
def sending (cap : BitVec 32) : Port := { blank with pkt := packetA cap }
theorem witness_EncryptWrapsThePayload :
    Case blank ((on blank).keyOut.ks = false) ∧
    SecureCase fake blank ((secured fake blank).keyOut.ks = true ∧ (secured fake blank).keyOut.tagLen = some 10#8 ∧
      (secured fake blank).keyOut.sess = some ⟨1⟩ ∧ blank.pkt.pay = none) ∧
    SecureCase fake (sending 25#32) ((sending 25#32).pkt.pay = some [1#8, 2#8, 3#8, 4#8, 5#8] ∧
      (sending 25#32).pkt.cap = some 25#32 ∧ (25#32).toNat < (on blank).params.ohbSize + 5 + (10#8).toNat) ∧
    SecureCase fake { blank with pkt := { packetA 26#32 with ssrc := none } }
      (({ packetA 26#32 with ssrc := none } : PacketView).ssrc = none) ∧
    SecureCase fake (sending 26#32) ((on blank).params.ohbSize + 5 + (10#8).toNat ≤ (26#32).toNat ∧ fake.protect = some (⟨1⟩, bufA ++ tag) ∧
      (bufA ++ tag).length = bufA.length + (10#8).toNat) ∧
    SecureCase { fake with protect := none } (sending 26#32) (({ fake with protect := none } : EngineDraw).protect = none) ∧
    SecureCase { fake with protect := some (⟨1⟩, bufA) } (sending 26#32) (bufA.length ≠ bufA.length + (10#8).toNat) := by
  decide
theorem witness_DecryptUnwrapsThePayload :
    Case blank ((on blank).keyIn.ks = false) ∧
    SecureCase fake (given (List.replicate 20 0#8)) ((secured fake blank).keyIn.ks = true ∧
      (secured fake blank).keyIn.tagLen = some 10#8 ∧ (secured fake blank).keyIn.sess = some ⟨2⟩ ∧
      (given (List.replicate 20 0#8)).ib.length < (on blank).params.ohbSize + (10#8).toNat) ∧
    SecureCase { fake with unprotect := .authFail } (given (List.replicate 21 0#8))
      ((on blank).params.ohbSize + (10#8).toNat ≤ (given (List.replicate 21 0#8)).ib.length) ∧
    SecureCase { fake with unprotect := .replayFail } (given (List.replicate 21 0#8))
      ((on blank).params.ohbSize + (10#8).toNat ≤ (given (List.replicate 21 0#8)).ib.length) ∧
    SecureCase { fake with unprotect := .done ⟨2⟩ ohbA } (given (List.replicate 21 0#8)) (ohbA.length < 1 + (on blank).params.ohbSize) ∧
    SecureCase { fake with unprotect := .done ⟨2⟩ (zeros 23) } (given (List.replicate 21 0#8))
      (21 + 1 < (zeros 23).length) ∧
    SecureCase { fake with unprotect := .done ⟨2⟩ (zeros 12) } (given (List.replicate 21 0#8))
      (1 + (on blank).params.ohbSize ≤ (zeros 12).length ∧ (zeros 12).length ≤ 21 + 1) := by decide
theorem witness_OverheadReportsTheOutDirection :
    Case blank ((on blank).keyOut.ks = false) ∧
    SecureCase fake blank ((secured fake blank).keyOut.ks = true ∧ (secured fake blank).keyOut.tagLen = some 10#8) := by
  decide
theorem witness_WrapperRoundTrip : ∃ t q u,
    (secured fake (sending 26#32)).params.OhbFits ∧
    SecureCase fake (sending 26#32) ((sending 26#32).pkt.pay = some [1#8, 2#8, 3#8, 4#8, 5#8]) ∧
    (secured fake (sending 26#32)).keyOut.sess = some ⟨1⟩ ∧ (secured fake (sending 26#32)).keyIn.ks = true ∧
    (secured fake (sending 26#32)).keyIn.tagLen = (secured fake (sending 26#32)).keyOut.tagLen ∧
    (secured fake (sending 26#32)).keyIn.sess = some ⟨2⟩ ∧
    exec .encrypt (secured fake (sending 26#32)) = .next t ∧ t.port? = some q ∧ q.status = some 0#8 ∧ ¬ t.halted ∧
    t.asked = (secured fake (sending 26#32)).asked ++ [.protect ⟨1⟩ bufA] ∧ fake.protect = some (⟨1⟩, bufA ++ tag) ∧
    (bufA ++ tag).head? = some (secured fake (sending 26#32)).params.versionByte ∧
    q.pkt.pay = some (bufA ++ tag).tail ∧
    u = { t with draw := { t.draw with unprotect := .done ⟨2⟩ bufA } }.setPort { q with ib := (bufA ++ tag).tail } :=
  ⟨_, _, _, rfl, by decide, rfl, rfl, rfl, rfl, rfl, rfl, rfl, by decide, rfl, rfl, rfl, rfl, rfl⟩

/-- A WRITE of the value in v that ends ok: the hypothesis that the laws of the codecs share. -/
abbrev Written (i : Instr) (p : Port) : Prop :=
  (on p).Ready p ∧ ∃ t q, exec i (on p) = .next t ∧ ¬ t.halted ∧ t.port? = some q
theorem witness_SizeLaw :
    (Instr.writeAst, Instr.vsizeAst) ∈ writeSizePairs ∧ Written .writeAst (holding [0x123456#32] 3#32) :=
  ⟨by decide, by decide, _, _, rfl, by decide, rfl⟩
theorem witness_RoundTripOfFixedTypes :
    (Instr.writeVct, Instr.parseVct, [0]) ∈ roundTripTypes ∧ (on blank).params.ContentTypeFits ∧
    Written .writeVct (holding [1#32] 1#32) :=
  ⟨by decide, by decide, by decide, _, _, rfl, by decide, rfl⟩
theorem witness_RoundTripOfPlayoutDelay :
    (on blank).params.CeilingFits ∧ (on blank).params.GranularityFits ∧
    (holding [105#32, 507#32] 3#32).v.get 0 = some 105#32 ∧ (holding [105#32, 507#32] 3#32).v.get 1 = some 507#32 ∧
    Written .writePdl (holding [105#32, 507#32] 3#32) ∧ Written .writePdl (holding [100#32, 500#32] 3#32) :=
  ⟨by decide, by decide, by decide, by decide, ⟨by decide, _, _, rfl, by decide, rfl⟩,
    ⟨by decide, _, _, rfl, by decide, rfl⟩⟩
theorem witness_RoundTripOfRotation :
    (∀ r, (on blank).params.rotationOf ((on blank).params.cvoOf r) = r) ∧ Written .writeCvo (holding [2#32] 1#32) :=
  ⟨by decide, by decide, _, _, rfl, by decide, rfl⟩
theorem witness_RoundTripOfFrameMarking :
    Marks 1#32 0#32 0xFF#32 3#32 0#32 3#32 ∧ Written .writeFm (marking 1#32 0#32 0xFF#32 3#32 0#32 3#32) ∧
    Marks 1#32 0#32 0xFF#32 0#32 0#32 1#32 ∧ Written .writeFm (marking 1#32 0#32 0xFF#32 0#32 0#32 1#32) :=
  ⟨by decide, ⟨by decide, _, _, rfl, by decide, rfl⟩, by decide, ⟨by decide, _, _, rfl, by decide, rfl⟩⟩
theorem witness_RoundTripOfStreamId :
    (Instr.writeRsid, Instr.parseRsid) ∈ [(Instr.writeRsid, Instr.parseRsid), (Instr.writeRrsid, Instr.parseRrsid)] ∧
    Written .writeRsid (naming [0x61#8, 0#8, 0x62#8] 3#5 3#32) :=
  ⟨by decide, by decide, _, _, rfl, by decide, rfl⟩
/-- The value is in the registers, OLEN holds no value, and with OLEN = 3 the WRITE ends ok. -/
theorem witness_WriteSizedByVsizeEndsOk :
    (Instr.writeAst, Instr.vsizeAst) ∈ writeSizePairs ∧
    Case { blank with v := vals [0x123456#32] } (({ blank with v := vals [0x123456#32] } : Port).olen = none) ∧
    ∃ t q, exec .writeAst ((on { blank with v := vals [0x123456#32] }).setPort
        { blank with v := vals [0x123456#32], olen := some 3#32 }) = .next t ∧ ¬ t.halted ∧ t.port? = some q :=
  ⟨by decide, by decide, _, _, rfl, by decide, rfl⟩

/-- The state of a block that has just been reset, with any values in its port but a bad STATUS, has the invariant. -/
theorem on_valid (p : Port) (h : p.status = none) : (on p).Valid where
  hasPort := by show 1 ≤ Params.spec.nports; decide
  ports := rfl
  cur := by simp [on, State.reset, State.resetOf]
  status := by
    intro q hq x hx
    simp only [on, List.mem_singleton] at hq
    rw [hq, h] at hx; cases hx
  keyOut := .inl ⟨rfl, rfl, rfl, rfl⟩
  keyIn := .inl ⟨rfl, rfl, rfl, rfl⟩
  fault := .inl ⟨rfl, rfl⟩
theorem witness_EveryCommandEndsInANextState : ¬ (on blank).halted ∧ (on blank).cur < (on blank).ports.length := by decide
/-- One command for each of the three ways to end. -/
theorem witness_OutcomesFollowTheTables :
    (∃ t, (on blank).Valid ∧ (on blank).Ready blank ∧ exec .vsizeAst (on blank) = .next t) ∧
    (∃ t, (on blank).Valid ∧ (on blank).Ready blank ∧ exec .parseAst (on blank) = .next t) ∧
    ∃ t, (on blank).Valid ∧ (on blank).Ready blank ∧ exec .writeAst (on blank) = .next t :=
  ⟨⟨_, on_valid _ rfl, by decide, rfl⟩, ⟨_, on_valid _ rfl, by decide, rfl⟩, ⟨_, on_valid _ rfl, by decide, rfl⟩⟩
theorem witness_FrameOfEveryCommand :
    ∃ t, (on blank).Ready blank ∧ exec .vsizeAst (on blank) = .next t ∧ ¬ t.halted ∧
      writesKey .vsizeAst .out = false ∧ Instr.vsizeAst ≠ .setkeyOut ∧ Instr.vsizeAst ≠ .setkeyIn :=
  ⟨_, by decide, rfl, by decide, by decide, by decide, by decide⟩
theorem witness_KeyStateHasOneTransition :
    ¬ (secured fake blank).halted ∧ ¬ (on (keying 1#32 30)).halted ∧
    (∃ t, step { secured fake blank with inbox := [.writeCMD 0 0x1000#16 fake] } = .next t ∧
      ((secured fake blank).key .out).ks = true) ∧
    ∃ t, step { on (keying 1#32 30) with inbox := [.writeCMD 0 0x1000#16 fake] } = .next t ∧
      ((on (keying 1#32 30)).key .out).ks = false ∧ (t.key .out).ks = true ∧
      ([.writeCMD 0 0x1000#16 fake] : List HostAction).head? ≠ some .reset :=
  ⟨by decide, by decide, ⟨_, rfl, rfl⟩, _, rfl, rfl, by decide, by decide⟩
theorem witness_StepKeepsValid : ∃ t, (on blank).Valid ∧ step (on blank) = .next t := ⟨_, on_valid _ rfl, rfl⟩
/-- Two ports: the first wraps a packet, the second unwraps one; and the second may have a codec command instead. -/
def twoPorts : State :=
  { secured fake blank with
    ports := [sending 26#32, given (bufA.tail ++ tag)], params := { Params.spec with nports := 2 } }
theorem witness_CommandsOfDifferentPortsCommute :
    0 ≠ 1 ∧ 0 < twoPorts.ports.length ∧ 1 < twoPorts.ports.length ∧ twoPorts.inbox = [] ∧
    wrapperDirection .encrypt ≠ wrapperDirection .decrypt ∧ wrapperDirection .vsizeAst = none ∧
    ∃ a b ab ba,
      step { twoPorts with inbox := [.writeCMD 0 (encode .encrypt) fake, .writeCMD 1 (encode .decrypt) fake] } = .next a ∧
      ¬ a.halted ∧
      step { twoPorts with inbox := [.writeCMD 1 (encode .decrypt) fake, .writeCMD 0 (encode .encrypt) fake] } = .next b ∧
      ¬ b.halted ∧ step a = .next ab ∧ step b = .next ba :=
  ⟨by decide, by decide, by decide, rfl, by decide, rfl, _, _, _, _, rfl, by decide, rfl, by decide, rfl, rfl⟩
/-- Two blocks with different sessions and a different last CMD word. -/
theorem witness_HiddenStateNeverShows :
    (secured fake blank).LooksLike
      { secured fake { blank with cmd := 0x1300#16 } with keyOut := keyed 3, keyIn := keyed 4 } ∧
    ∃ t, step (secured fake blank) = .next t :=
  ⟨⟨by decide, by decide, by decide, by decide, by decide, by decide, by decide⟩, _, rfl⟩

end Sys2Proof.Tests
end

/-! How every command ends (spec/00_scope.md R19, R50, spec/60_exceptions.md R139 to R143). Each body of pseudocode is
followed once, with `Yields`, for the stops it can reach; `exec_ends` puts the 42 commands together, and the two
statements about all of them are read off it. -/

namespace Sys2Proof.Machine

/-! ## What a piece of pseudocode can answer -/

/-- The pseudocode either answers a value with `Q` or stops with a stop in `E`. -/
def Yields {α : Type} (E : Stop → Prop) (Q : α → Prop) : Except Stop α → Prop
  | .ok a => Q a
  | .error e => E e

@[simp] theorem yields_ok {α : Type} {E : Stop → Prop} {Q : α → Prop} {a : α} : Yields E Q (.ok a) ↔ Q a := .rfl

@[simp] theorem yields_error {α : Type} {E : Stop → Prop} {Q : α → Prop} {e : Stop} :
    Yields E Q (.error e) ↔ E e := .rfl

namespace Yields

variable {α β : Type} {E : Stop → Prop} {Q Q' : α → Prop} {R : β → Prop} {p : Port}

theorem pure {a : α} (h : Q a) : Yields E Q (Pure.pure a) := h

theorem bind {x : Except Stop α} {f : α → Except Stop β} (hx : Yields E Q x) (hf : ∀ a, Q a → Yields E R (f a)) :
    Yields E R (x >>= f) := by
  cases x with
  | ok a => exact hf a hx
  | error e => exact hx

theorem weaken {x : Except Stop α} (hx : Yields E Q x) (h : ∀ a, Q a → Q' a) : Yields E Q' x := by
  cases x with
  | ok a => exact h a hx
  | error e => exact hx

theorem require {c : Prop} [Decidable c] {stop : Stop} (h : E stop) :
    Yields E (fun _ => c) (Machine.require c stop) := by
  by_cases hc : c
  · rw [require_of hc]; exact hc
  · rw [require_of_not hc]; exact h

theorem contract {c : Prop} [Decidable c] (h : E (.raise .contractViolation)) :
    Yields E (fun _ => c) (Machine.contract c) := require h

theorem requireIB {c : Nat → Bool} (h : E (.fail .malformedLength)) :
    Yields E (fun _ => c p.ib.length = true) (p.requireIB c) := require h

/-- The length check of a PARSE of a fixed size (R71). -/
theorem requireIB_eq {n : Nat} (h : E (.fail .malformedLength)) :
    Yields E (fun _ => p.ib.length = n) (p.requireIB (· == n)) := by
  simpa using requireIB (c := (· == n)) h

theorem held {r : Option α} (h : r = none → E (.raise .unwrittenRead)) :
    Yields E (fun x => r = some x) (Machine.held r) := by
  cases r with
  | none => exact h rfl
  | some x => exact rfl

theorem readV {i : Fin 8} (h : E (.raise .unwrittenRead)) : Yields E (fun x => p.v.get i = some x) (p.readV i) :=
  held fun _ => h

theorem readSLEN (h : E (.raise .unwrittenRead)) : Yields E (fun _ => True) p.readSLEN :=
  bind (held fun _ => h) fun _ _ => pure trivial

/-- A read of SB that does not stop gives as many bytes as asked for, up to the 16 that SB has (R27). -/
theorem readSB {n : Nat} (h : E (.raise .unwrittenRead)) :
    Yields E (fun bytes => bytes.length = min n 16) (p.readSB n) := by
  cases hread : p.readSB n with
  | ok bytes =>
    have hlength := congrArg List.length (heldAll_eq_ok.mp hread)
    simp only [List.length_take, Vector.length_toList, List.length_map] at hlength
    exact hlength.symm
  | error e => exact (heldAll_eq_error.mp hread).2 ▸ h

theorem requireOLEN {size : Nat} (hread : E (.raise .unwrittenRead)) (hcontract : E (.raise .contractViolation)) :
    Yields E (fun _ => True) (p.requireOLEN size) :=
  bind (held fun _ => hread) fun _ _ => (contract hcontract).weaken fun _ _ => trivial

theorem memRead {B : List Byte} {a n : Nat} (h : a + n ≤ B.length) :
    Yields E (fun _ => True) (Machine.memRead B a n) := by
  rw [memRead_of_le h]; exact trivial

theorem memWrite {B : List Byte} {a n x : Nat} (h : a + n ≤ B.length) :
    Yields E (fun C => C.length = B.length) (Machine.memWrite B a n x) := by
  have hdef := memWrite_of_le (x := x) h
  rw [hdef]; exact memWrite_length hdef

theorem byteAt {B : List Byte} {a : Nat} (h : a < B.length) : Yields E (fun _ => True) (Machine.byteAt B a) := by
  rw [byteAt_eq_ok.mpr (List.getElem?_eq_getElem h)]; exact trivial

end Yields

/-! ## The stops of each command's pseudocode -/

/-- The pseudocode stops, if it does, with a stop in `E`. -/
abbrev StopsIn {α : Type} (E : Stop → Prop) (x : Except Stop α) : Prop := Yields E (fun _ => True) x

section
variable {E : Stop → Prop} {P : Params} {p : Port}

/-! ### PARSE: the length check makes every later read defined (R50, R71) -/

theorem parseAstBody_stops (hlen : E (.fail .malformedLength)) : StopsIn E (parseAstBody P p) :=
  .bind (.requireIB_eq hlen) fun _ hib => .bind (.memRead (by omega)) fun _ _ => .pure trivial

theorem parseAlBody_stops (hlen : E (.fail .malformedLength)) : StopsIn E (parseAlBody P p) :=
  .bind (.requireIB_eq hlen) fun _ hib => .bind (.byteAt (by omega)) fun _ _ => .pure trivial

theorem parseToffBody_stops (hlen : E (.fail .malformedLength)) : StopsIn E (parseToffBody P p) :=
  .bind (.requireIB_eq hlen) fun _ hib => .bind (.memRead (by omega)) fun _ _ => .pure trivial

theorem parseTsnBody_stops (hlen : E (.fail .malformedLength)) : StopsIn E (parseTsnBody P p) :=
  .bind (.requireIB_eq hlen) fun _ hib => .bind (.memRead (by omega)) fun _ _ => .pure trivial

theorem parseCvoBody_stops (hlen : E (.fail .malformedLength)) : StopsIn E (parseCvoBody P p) :=
  .bind (.requireIB_eq hlen) fun _ hib => .bind (.byteAt (by omega)) fun _ _ => .pure trivial

theorem parseCvorawBody_stops (hlen : E (.fail .malformedLength)) : StopsIn E (parseCvorawBody P p) :=
  .bind (.requireIB_eq hlen) fun _ hib => .bind (.byteAt (by omega)) fun _ _ => .pure trivial

theorem parsePdlBody_stops (hlen : E (.fail .malformedLength)) (hvalue : E (.fail .invalidFieldValue)) :
    StopsIn E (parsePdlBody P p) :=
  .bind (.requireIB_eq hlen) fun _ hib => .bind (.memRead (by omega)) fun _ _ => .bind (.require hvalue) fun _ _ =>
    .pure trivial

theorem parseVctBody_stops (hlen : E (.fail .malformedLength)) (hvalue : E (.fail .invalidFieldValue)) :
    StopsIn E (parseVctBody P p) :=
  .bind (.requireIB_eq hlen) fun _ hib => .bind (.byteAt (by omega)) fun _ _ => .bind (.require hvalue) fun _ _ =>
    .pure trivial

theorem parseVtBody_stops (hlen : E (.fail .malformedLength)) : StopsIn E (parseVtBody P p) :=
  .bind (.requireIB_eq hlen) fun _ hib => .bind (.memRead (by omega)) fun _ _ => .bind (.memRead (by omega)) fun _ _ =>
    .bind (.memRead (by omega)) fun _ _ => .bind (.memRead (by omega)) fun _ _ =>
    .bind (.memRead (by omega)) fun _ _ => .bind (.memRead (by omega)) fun _ _ => .pure trivial

theorem parseStreamIdBody_stops (hlen : E (.fail .malformedLength)) (hvalue : E (.fail .invalidFieldValue)) :
    StopsIn E (parseStreamIdBody P p) :=
  .bind (.requireIB hlen) fun _ _ => .bind (.require hvalue) fun _ hne => .bind (.byteAt (by omega)) fun _ _ =>
    .bind (.require hvalue) fun _ _ => .pure trivial

theorem parseFmBody_stops (hlen : E (.fail .malformedLength)) : StopsIn E (parseFmBody P p) := by
  refine .bind (.requireIB hlen) fun _ hib => ?_
  have hsize : p.ib.length = 1 ∨ p.ib.length = 3 := by simpa using hib
  refine .bind (.byteAt (by omega)) fun _ _ => ?_
  split
  · exact .bind (.byteAt (by omega)) fun _ _ => .bind (.byteAt (by omega)) fun _ _ => .pure trivial
  · exact .pure trivial

/-! ### WRITE and VP9LID: a register without a value, or the caller contract (R72) -/

section
variable (hread : E (.raise .unwrittenRead)) (hcontract : E (.raise .contractViolation))
include hread hcontract

theorem writeAstBody_stops : StopsIn E (writeAstBody P p) :=
  .bind (.readV hread) fun _ _ => .bind (.contract hcontract) fun _ _ =>
    .bind (.requireOLEN hread hcontract) fun _ _ => .bind (.memWrite (by simp [zeros])) fun _ _ => .pure trivial

theorem writeAlBody_stops : StopsIn E (writeAlBody P p) :=
  .bind (.readV hread) fun _ _ => .bind (.readV hread) fun _ _ => .bind (.contract hcontract) fun _ _ =>
    .bind (.contract hcontract) fun _ _ => .bind (.requireOLEN hread hcontract) fun _ _ => .pure trivial

theorem writeToffBody_stops : StopsIn E (writeToffBody P p) :=
  .bind (.readV hread) fun _ _ => .bind (.contract hcontract) fun _ _ =>
    .bind (.requireOLEN hread hcontract) fun _ _ => .bind (.memWrite (by simp [zeros])) fun _ _ => .pure trivial

theorem writeTsnBody_stops : StopsIn E (writeTsnBody P p) :=
  .bind (.readV hread) fun _ _ => .bind (.contract hcontract) fun _ _ =>
    .bind (.requireOLEN hread hcontract) fun _ _ => .bind (.memWrite (by simp [zeros])) fun _ _ => .pure trivial

theorem writeCvoBody_stops : StopsIn E (writeCvoBody P p) :=
  .bind (.readV hread) fun _ _ => .bind (.contract hcontract) fun _ _ =>
    .bind (.requireOLEN hread hcontract) fun _ _ => .pure trivial

theorem writeCvorawBody_stops : StopsIn E (writeCvorawBody P p) :=
  .bind (.readV hread) fun _ _ => .bind (.contract hcontract) fun _ _ =>
    .bind (.requireOLEN hread hcontract) fun _ _ => .pure trivial

theorem writePdlBody_stops : StopsIn E (writePdlBody P p) :=
  .bind (.readV hread) fun _ _ => .bind (.readV hread) fun _ _ => .bind (.contract hcontract) fun _ _ =>
    .bind (.requireOLEN hread hcontract) fun _ _ => .bind (.memWrite (by simp [zeros])) fun _ _ => .pure trivial

theorem writeVctBody_stops : StopsIn E (writeVctBody P p) :=
  .bind (.readV hread) fun _ _ => .bind (.contract hcontract) fun _ _ =>
    .bind (.requireOLEN hread hcontract) fun _ _ => .pure trivial

/-- Each of the six writes keeps the 12 bytes of the buffer, so the next one is inside it. -/
theorem writeVtBody_stops : StopsIn E (writeVtBody P p) := by
  refine .bind (.readV hread) fun _ _ => .bind (.readV hread) fun _ _ => .bind (.readV hread) fun _ _ =>
    .bind (.readV hread) fun _ _ => .bind (.readV hread) fun _ _ => .bind (.readV hread) fun _ _ =>
    .bind (.contract hcontract) fun _ _ => .bind (.requireOLEN hread hcontract) fun _ _ => ?_
  have hzeros : (zeros 12).length = 12 := by simp [zeros]
  exact .bind (.memWrite (by omega)) fun _ h0 => .bind (.memWrite (by omega)) fun _ h1 =>
    .bind (.memWrite (by omega)) fun _ h2 => .bind (.memWrite (by omega)) fun _ h3 =>
    .bind (.memWrite (by omega)) fun _ h4 => .bind (.memWrite (by omega)) fun _ _ => .pure trivial

/-- SLEN is not 0, so the bytes read from SB have a first one. -/
theorem writeStreamIdBody_stops : StopsIn E (writeStreamIdBody P p) :=
  .bind (.readSLEN hread) fun _ _ => .bind (.contract hcontract) fun _ hn => .bind (.readSB hread) fun _ hbytes =>
    .bind (.byteAt (by omega)) fun _ _ => .bind (.contract hcontract) fun _ _ =>
    .bind (.requireOLEN hread hcontract) fun _ _ => .pure trivial

theorem writeFmBody_stops : StopsIn E (writeFmBody P p) := by
  refine .bind (.readV hread) fun _ _ => .bind (.readV hread) fun _ _ => .bind (.readV hread) fun _ _ =>
    .bind (.readV hread) fun _ _ => .bind (.readV hread) fun _ _ => .bind (.readV hread) fun _ _ =>
    .bind (.readV hread) fun _ _ => .bind (.readV hread) fun _ _ => .bind (.contract hcontract) fun _ _ =>
    .bind (.contract hcontract) fun _ _ => .bind (.contract hcontract) fun _ _ =>
    .bind (.requireOLEN hread hcontract) fun _ _ => ?_
  split <;> exact .pure trivial

theorem vp9lidBody_stops : StopsIn E (vp9lidBody P p) :=
  .bind (.readV hread) fun _ _ => .bind (.readV hread) fun _ _ => .bind (.readV hread) fun _ _ =>
    .bind (.contract hcontract) fun _ _ => .pure trivial

end

/-! ### VSIZE: a constant, or registers that may hold no value (R73) -/

theorem vsizeBody_stops {size : Nat} : StopsIn E (vsizeBody size P p) := .pure trivial

theorem vsizeStreamIdBody_stops (hread : E (.raise .unwrittenRead)) : StopsIn E (vsizeStreamIdBody P p) :=
  .bind (.readSLEN hread) fun _ _ => .pure trivial

theorem vsizeFmBody_stops (hread : E (.raise .unwrittenRead)) : StopsIn E (vsizeFmBody P p) :=
  .bind (.readV hread) fun _ _ => .bind (.readV hread) fun _ _ => .bind (.readV hread) fun _ _ =>
    .bind (.readV hread) fun _ _ => .pure trivial

/-! ### The wrapper: the checks before the engine, and what is made of its answer -/

/-- A keyed direction holds a TAGLEN and a session (R34). -/
def KeyState.HoldsValues (k : KeyState) : Prop := k.ks = true → k.tagLen ≠ none ∧ k.sess ≠ none

theorem KeyState.Valid.holdsValues {k : KeyState} (h : k.Valid P) : k.HoldsValues := by
  intro hks
  rcases h with ⟨hks', -⟩ | ⟨-, hsess, row, -, -, htag⟩
  · simp [hks] at hks'
  · exact ⟨by simp [htag], Option.isSome_iff_ne_none.mp hsess⟩

/-- Whatever the engine answers, the rest of the command stops, if it does, with a stop in `E`. -/
abbrev EngineCall.StopsIn (E : Stop → Prop) (call : EngineCall) : Prop :=
  ∀ draw, Machine.StopsIn E (call.finish draw)

variable {k : KeyState}

theorem setkeyBody_stops {d : Direction} (hkeyed : E (.fail .sessionAlreadyKeyed)) (hread : E (.raise .unwrittenRead))
    (hsuite : E (.fail .unsupportedCipherSuite)) (hlen : E (.fail .invalidKeyLength))
    (hengine : E (.fail .engineFailure)) : Yields E (EngineCall.StopsIn E) (setkeyBody d P k p) := by
  refine .bind (.require hkeyed) fun _ _ => .bind (.readV hread) fun v0 _ => ?_
  cases P.suiteOf v0 with
  | none => exact hsuite
  | some row =>
    refine .bind (.require hlen) fun _ _ => .pure fun draw => ?_
    dsimp only
    split
    · exact hengine
    · exact .pure trivial

theorem encryptBody_stops (hkeyed : E (.fail .sessionNotKeyed)) (hread : E (.raise .unwrittenRead))
    (hcap : E (.fail .capacityExceeded)) (hengine : E (.fail .engineFailure))
    (hlaw : E (.raise .engineContractViolation)) : Yields E (EngineCall.StopsIn E) (encryptBody P k p) := by
  have hheld {α : Type} (r : Option α) : Yields E (fun x => r = some x) (held r) := .held fun _ => hread
  refine .bind (.require hkeyed) fun _ _ => .bind (hheld _) fun _ _ => .bind (hheld _) fun _ _ =>
    .bind (hheld _) fun _ _ => .bind (.require hcap) fun _ _ => .bind (hheld _) fun _ _ => .bind (hheld _) fun _ _ =>
    .bind (hheld _) fun _ _ => .bind (hheld _) fun _ _ => .bind (hheld _) fun _ _ => .bind (hheld _) fun _ _ =>
    .pure fun draw => ?_
  dsimp only
  split
  · exact hengine
  · exact .bind (.require hlaw) fun _ _ => .pure trivial

theorem decryptBody_stops (hkeyed : E (.fail .sessionNotKeyed))
    (hread : ¬ k.HoldsValues → E (.raise .unwrittenRead)) (hlen : E (.fail .malformedLength))
    (hauth : E (.fail .authenticationFailure)) (hreplay : E (.fail .replayFailure))
    (hlaw : E (.raise .engineContractViolation)) : Yields E (EngineCall.StopsIn E) (decryptBody P k p) := by
  refine .bind (.require hkeyed) fun _ hks => .bind (.held fun hnone => hread fun h => (h hks).1 hnone) fun _ _ =>
    .bind (.require hlen) fun _ _ => .bind (.held fun hnone => hread fun h => (h hks).2 hnone) fun _ _ =>
    .pure fun draw => ?_
  dsimp only
  split
  · exact hauth
  · exact hreplay
  · exact .bind (.require hlaw) fun _ _ => .pure trivial

theorem overheadBody_stops (hread : ¬ k.HoldsValues → E (.raise .unwrittenRead)) :
    StopsIn E (overheadBody k P p) := by
  unfold overheadBody
  split
  case isTrue hks => exact .bind (.held fun hnone => hread fun h => (h hks).1 hnone) fun _ _ => .pure trivial
  case isFalse => exact trivial

end

/-! ## The ends of a command (R19) -/

/-- The answer is a running block with STATUS OK on the issuing port, or that of a stop in `E`. The questions asked so
far are the model's own field, log entry 6. -/
def EndsIn (E : Stop → Prop) (i : Instr) (s : State) (p : Port) (a : Answer) : Prop :=
  (∃ t q, a = .next t ∧ ¬ t.halted ∧ t.port? = some q ∧ q.status = some 0#8) ∨
  ∃ asked stop, E stop ∧ a = ({ s with asked := asked } : State).stopped i p stop

section
variable {E : Stop → Prop} {i : Instr} {s : State} {p : Port}

theorem runPort_ends {body : Params → Port → Except Stop Port} (hs : s.Ready p)
    (hbody : StopsIn E (body s.params p)) : EndsIn E i s p (runPort i body s) := by
  obtain ⟨hrun, hport⟩ := hs
  cases hb : body s.params p with
  | ok p' =>
    rw [runPort_of_ok hrun hport hb]
    exact .inl ⟨_, _, rfl, hrun, State.setPort_port? _ hport, rfl⟩
  | error stop =>
    rw [runPort_of_error hrun hport hb]
    exact .inr ⟨s.asked, stop, by simpa [hb] using hbody, rfl⟩

theorem runEngine_ends {d : Direction} {body : Params → KeyState → Port → Except Stop EngineCall} (hs : s.Ready p)
    (hbody : Yields E (EngineCall.StopsIn E) (body s.params (s.key d) p)) :
    EndsIn E i s p (runEngine i d body s) := by
  obtain ⟨hrun, hport⟩ := hs
  cases hb : body s.params (s.key d) p with
  | error stop =>
    rw [runEngine_of_error hrun hport hb]
    exact .inr ⟨s.asked, stop, by simpa [hb] using hbody, rfl⟩
  | ok call =>
    have hfinish : StopsIn E (call.finish s.draw) := by rw [hb] at hbody; exact hbody s.draw
    cases hf : call.finish s.draw with
    | ok r =>
      rw [runEngine_of_answer hrun hport hb hf]
      exact .inl ⟨_, _, rfl, by simpa using hrun, State.setPort_port? _ (by simpa using hport), rfl⟩
    | error stop =>
      rw [runEngine_of_refusal hrun hport hb hf]
      exact .inr ⟨_, stop, by simpa [hf] using hfinish, rfl⟩

end

/-- The stops that the tables of R139 and R140 list for a command. -/
def Stop.listed (i : Instr) : Stop → Bool
  | .fail c => mayFail c i
  | .raise k => mayRaise k i
  | .undefinedAccess => false

/-- Every command ends ok or with a stop that the tables list for it; only a keyed direction that does not hold its
values, which R34 rules out, can add UnwrittenRead (log entry 15). -/
theorem exec_ends {E : Stop → Prop} {i : Instr} {s : State} {p : Port} (hs : s.Ready p)
    (hlisted : ∀ stop, stop.listed i = true → E stop)
    (hkey : ∀ d, ¬ (s.key d).HoldsValues → E (.raise .unwrittenRead)) : EndsIn E i s p (exec i s) := by
  cases i with
  | parseAst => exact runPort_ends hs (parseAstBody_stops (hlisted _ rfl))
  | parseAl => exact runPort_ends hs (parseAlBody_stops (hlisted _ rfl))
  | parseToff => exact runPort_ends hs (parseToffBody_stops (hlisted _ rfl))
  | parseTsn => exact runPort_ends hs (parseTsnBody_stops (hlisted _ rfl))
  | parseCvo => exact runPort_ends hs (parseCvoBody_stops (hlisted _ rfl))
  | parseCvoraw => exact runPort_ends hs (parseCvorawBody_stops (hlisted _ rfl))
  | parsePdl => exact runPort_ends hs (parsePdlBody_stops (hlisted _ rfl) (hlisted _ rfl))
  | parseVct => exact runPort_ends hs (parseVctBody_stops (hlisted _ rfl) (hlisted _ rfl))
  | parseVt => exact runPort_ends hs (parseVtBody_stops (hlisted _ rfl))
  | parseRsid | parseRrsid => exact runPort_ends hs (parseStreamIdBody_stops (hlisted _ rfl) (hlisted _ rfl))
  | parseFm => exact runPort_ends hs (parseFmBody_stops (hlisted _ rfl))
  | writeAst => exact runPort_ends hs (writeAstBody_stops (hlisted _ rfl) (hlisted _ rfl))
  | writeAl => exact runPort_ends hs (writeAlBody_stops (hlisted _ rfl) (hlisted _ rfl))
  | writeToff => exact runPort_ends hs (writeToffBody_stops (hlisted _ rfl) (hlisted _ rfl))
  | writeTsn => exact runPort_ends hs (writeTsnBody_stops (hlisted _ rfl) (hlisted _ rfl))
  | writeCvo => exact runPort_ends hs (writeCvoBody_stops (hlisted _ rfl) (hlisted _ rfl))
  | writeCvoraw => exact runPort_ends hs (writeCvorawBody_stops (hlisted _ rfl) (hlisted _ rfl))
  | writePdl => exact runPort_ends hs (writePdlBody_stops (hlisted _ rfl) (hlisted _ rfl))
  | writeVct => exact runPort_ends hs (writeVctBody_stops (hlisted _ rfl) (hlisted _ rfl))
  | writeVt => exact runPort_ends hs (writeVtBody_stops (hlisted _ rfl) (hlisted _ rfl))
  | writeRsid | writeRrsid => exact runPort_ends hs (writeStreamIdBody_stops (hlisted _ rfl) (hlisted _ rfl))
  | writeFm => exact runPort_ends hs (writeFmBody_stops (hlisted _ rfl) (hlisted _ rfl))
  | vsizeAst | vsizeAl | vsizeToff | vsizeTsn | vsizeCvo | vsizeCvoraw | vsizePdl | vsizeVct | vsizeVt =>
    exact runPort_ends hs vsizeBody_stops
  | vsizeRsid | vsizeRrsid => exact runPort_ends hs (vsizeStreamIdBody_stops (hlisted _ rfl))
  | vsizeFm => exact runPort_ends hs (vsizeFmBody_stops (hlisted _ rfl))
  | vp9lid => exact runPort_ends hs (vp9lidBody_stops (hlisted _ rfl) (hlisted _ rfl))
  | setkeyOut | setkeyIn =>
    exact runEngine_ends hs (setkeyBody_stops (hlisted _ rfl) (hlisted _ rfl) (hlisted _ rfl) (hlisted _ rfl)
      (hlisted _ rfl))
  | encrypt =>
    exact runEngine_ends hs (encryptBody_stops (hlisted _ rfl) (hlisted _ rfl) (hlisted _ rfl) (hlisted _ rfl)
      (hlisted _ rfl))
  | decrypt =>
    exact runEngine_ends hs (decryptBody_stops (hlisted _ rfl) (hkey .inn) (hlisted _ rfl) (hlisted _ rfl)
      (hlisted _ rfl) (hlisted _ rfl))
  | overhead => exact runPort_ends hs (overheadBody_stops (hkey .out))

/-! ## The statements about every command -/

/-- The only stop without a next state is an access outside a buffer (R50). -/
theorem State.stopped_eq_next {stop : Stop} (s : State) (i : Instr) (p : Port) (h : stop ≠ .undefinedAccess) :
    ∃ t, s.stopped i p stop = .next t := by
  cases stop with
  | fail c => exact ⟨_, State.stopped_fail ..⟩
  | raise k => exact ⟨_, State.stopped_raise ..⟩
  | undefinedAccess => exact absurd rfl h

theorem Stop.ne_undefinedAccess_of_listed {i : Instr} {stop : Stop} (h : stop.listed i = true) :
    stop ≠ .undefinedAccess := by
  rintro rfl; cases h

/-- Settles O49: no command of a running block reaches an access outside a buffer, whatever its key state holds. -/
theorem everyCommandEndsInANextState : Obligations.EveryCommandEndsInANextState := by
  unfold Obligations.EveryCommandEndsInANextState
  intro i s hrun hcur
  obtain ⟨p, hport⟩ := Option.isSome_iff_exists.mp (s.port?_isSome_iff.mpr hcur)
  have hends : EndsIn (· ≠ .undefinedAccess) i s p (exec i s) :=
    exec_ends ⟨hrun, hport⟩ (fun _ => Stop.ne_undefinedAccess_of_listed) fun _ _ => by simp
  rcases hends with ⟨t, q, hexec, -⟩ | ⟨asked, stop, hstop, hexec⟩
  · exact ⟨t, hexec⟩
  · rw [hexec]; exact State.stopped_eq_next _ i p hstop

theorem State.Valid.key_holdsValues {s : State} (h : s.Valid) (d : Direction) : (s.key d).HoldsValues := by
  cases d with
  | out => exact h.keyOut.holdsValues
  | inn => exact h.keyIn.holdsValues

/-- Settles O50: at a valid state every stop of a command is one that the tables list for it. -/
theorem outcomesFollowTheTables : Obligations.OutcomesFollowTheTables := by
  unfold Obligations.OutcomesFollowTheTables
  intro i s t p hvalid hs hexec
  have hends : EndsIn (fun stop => stop.listed i = true) i s p (exec i s) :=
    exec_ends hs (fun _ h => h) fun d h => absurd (hvalid.key_holdsValues d) h
  rw [hexec] at hends
  rcases hends with ⟨t', q, ht, hrun, hport, hok⟩ | ⟨asked, stop, hlisted, hstopped⟩
  · cases ht; exact .inl ⟨hrun, q, hport, hok⟩
  · refine .inr ⟨asked, ?_⟩
    rcases State.stopped_next hstopped.symm with ⟨c, rfl, rfl⟩ | ⟨k, rfl, rfl⟩
    · exact .inl ⟨c, hlisted, rfl⟩
    · exact .inr ⟨k, hlisted, State.raiseFault_of_running (s := { s with asked := asked }) hs.1 k _⟩

end Sys2Proof.Machine

/-! What a step and a command change, and what they leave as it was (spec/10_state.md). `stepsTo_of_step` says once what
a step can do and `exec_effect` what a command can; the frame of every command, the key state's one transition and the
invariant of every run are read off these two. -/

namespace Sys2Proof.Machine

/-! ## Registers after an update -/

@[simp] theorem State.setKey_fault (s : State) (d : Direction) (k : KeyState) : (s.setKey d k).fault = s.fault := by
  cases d <;> rfl
@[simp] theorem State.setKey_fcmd (s : State) (d : Direction) (k : KeyState) : (s.setKey d k).fcmd = s.fcmd := by
  cases d <;> rfl
@[simp] theorem State.setKey_draw (s : State) (d : Direction) (k : KeyState) : (s.setKey d k).draw = s.draw := by
  cases d <;> rfl
@[simp] theorem State.setKey_inbox (s : State) (d : Direction) (k : KeyState) : (s.setKey d k).inbox = s.inbox := by
  cases d <;> rfl

/-- The key state is held outside the ports and the model's own fields. -/
theorem State.key_congr {s t : State} (hout : t.keyOut = s.keyOut) (hin : t.keyIn = s.keyIn) (d : Direction) :
    t.key d = s.key d := by
  cases d with
  | out => exact hout
  | inn => exact hin

/-- The port that takes the command is there, with CMD holding the word (R29). -/
theorem State.accept_port? {s : State} {n : Nat} {p : Port} (hp : s.ports[n]? = some p) (w : CmdWord)
    (draw : EngineDraw) : (s.accept n w draw).port? = some { p with cmd := w } := by
  simp [State.accept, State.port?, hp]

theorem Port.reset_v_get (j : Fin 8) : Port.reset.v.get j = none := by
  simp [Port.reset, Vector.get_eq_getElem]

theorem Port.reset_sb_get (k : Fin 16) : Port.reset.sb.get k = none := by
  simp [Port.reset, Vector.get_eq_getElem]

/-- After reset every port is as R156 lists it. -/
theorem State.eq_reset_of_mem_resetOf {P : Params} {p : Port} (h : p ∈ (State.resetOf P).ports) : p = Port.reset :=
  List.eq_of_mem_replicate h

/-- Settles O10: the ports after reset are copies of `Port.reset`. -/
theorem resetValues : Obligations.ResetValues := by
  unfold Obligations.ResetValues
  refine ⟨fun p hp => ?_, rfl, rfl, fun d => ?_⟩
  · obtain rfl := State.eq_reset_of_mem_resetOf hp
    exact ⟨Port.reset_v_get, Port.reset_sb_get, rfl, rfl, rfl, rfl, rfl, rfl, rfl, rfl, rfl, rfl, rfl, rfl, rfl⟩
  · cases d <;> exact ⟨rfl, rfl, rfl, rfl⟩

/-! ## The decoder and the words of R65 -/

/-- A word is its CLASS, OP and ARG side by side (R59). -/
theorem word_eq_of_fields (w : CmdWord) :
    w = BitVec.ofNat 16 (classField w * 0x1000 + opField w * 0x100 + argField w) := by
  apply BitVec.eq_of_toNat_eq
  simp only [classField, opField, argField, BitVec.extractLsb'_toNat, BitVec.toNat_ofNat, Nat.shiftRight_eq_div_pow]
  omega

theorem encode_of_decodeParse {n : Nat} {i : Instr} (h : decodeParse n = .command i) :
    encode i = BitVec.ofNat 16 n := by
  unfold decodeParse at h
  split at h <;> cases h <;> rfl

theorem encode_of_decodeWrite {n : Nat} {i : Instr} (h : decodeWrite n = .command i) :
    encode i = BitVec.ofNat 16 (0x100 + n) := by
  unfold decodeWrite at h
  split at h <;> cases h <;> rfl

theorem encode_of_decodeVsize {n : Nat} {i : Instr} (h : decodeVsize n = .command i) :
    encode i = BitVec.ofNat 16 (0x200 + n) := by
  unfold decodeVsize at h
  split at h <;> cases h <;> rfl

/-- An operation with one legal ARG (R61, R63). -/
theorem of_ite_eq_command {c : Prop} [Decidable c] {i j : Instr} {r : Reject}
    (h : (if c then Decoded.command j else .rejected r) = .command i) : c ∧ j = i := by
  split at h
  case isTrue hc => cases h; exact ⟨hc, rfl⟩
  case isFalse => cases h

theorem encode_of_decodeCodec {op arg : Nat} {i : Instr} (h : decodeCodec op arg = .command i) :
    encode i = BitVec.ofNat 16 (op * 0x100 + arg) := by
  unfold decodeCodec at h
  split at h
  · simpa using encode_of_decodeParse h
  · simpa using encode_of_decodeWrite h
  · simpa using encode_of_decodeVsize h
  · obtain ⟨rfl, rfl⟩ := of_ite_eq_command h; rfl
  · cases h

theorem encode_of_decodeWrapper {op arg : Nat} {i : Instr} (h : decodeWrapper op arg = .command i) :
    encode i = BitVec.ofNat 16 (0x1000 + op * 0x100 + arg) := by
  unfold decodeWrapper at h
  split at h
  · split at h
    case isTrue harg => cases h; subst harg; rfl
    case isFalse => obtain ⟨rfl, rfl⟩ := of_ite_eq_command h; rfl
  · obtain ⟨rfl, rfl⟩ := of_ite_eq_command h; rfl
  · obtain ⟨rfl, rfl⟩ := of_ite_eq_command h; rfl
  · obtain ⟨rfl, rfl⟩ := of_ite_eq_command h; rfl
  · cases h

/-- A word decodes only to the command whose word it is (R65, R67). -/
theorem encode_of_decode {w : CmdWord} {i : Instr} (h : decode w = .command i) : encode i = w := by
  rw [word_eq_of_fields w]
  unfold decode at h
  split at h
  case h_1 hclass => simpa [hclass] using encode_of_decodeCodec h
  case h_2 hclass => simpa [hclass] using encode_of_decodeWrapper h
  case h_3 => cases h

/-- The word of a command decodes to it (R65, R67). -/
theorem decode_encode (i : Instr) : decode (encode i) = .command i := by
  cases i <;> rfl

/-- A rejected word is no command's (R66). -/
theorem encode_ne_of_rejected {w : CmdWord} {r : Reject} (h : decode w = .rejected r) (i : Instr) : encode i ≠ w := by
  rintro rfl
  rw [decode_encode] at h; cases h

/-! ## What a step can do -/

theorem step_of_done {s : State} {a : Answer} (h : s.nextRequest = .done a) : step s = a := by
  simp [step, h]

theorem step_of_command {s t : State} {w : CmdWord} {i : Instr} (h : s.nextRequest = .command w t)
    (hw : decode w = .command i) : step s = exec i t := by
  simp [step, h, hw]

theorem step_of_rejected {s t : State} {w : CmdWord} {r : Reject} (h : s.nextRequest = .command w t)
    (hw : decode w = .rejected r) : step s = .next (t.raiseFault .illegalCommand w) := by
  simp [step, h, hw]

/-- A CMD write on a port that is there asks for the word's command (R29). -/
theorem State.nextRequest_writeCMD {s : State} {n : Nat} {w : CmdWord} {draw : EngineDraw} {rest : List HostAction}
    (hr : ¬ s.halted) (hi : s.inbox = .writeCMD n w draw :: rest) (hn : n < s.ports.length) :
    s.nextRequest = .command w ({ s with inbox := rest }.accept n w draw) := by
  rw [State.nextRequest_cons hr hi]; exact State.perform_writeCMD hn

/-- Settles O4: such a CMD write is the next request. -/
theorem stepRunsTheDecodedCommand : Obligations.StepRunsTheDecodedCommand := by
  unfold Obligations.StepRunsTheDecodedCommand
  intro s n w draw rest i hi hn hr hw
  exact step_of_command (State.nextRequest_writeCMD hr hi hn) hw

/-- Settles O8: `State.perform` looks for the port before the word. -/
theorem commandOnAbsentPortIsRefused : Obligations.CommandOnAbsentPortIsRefused := by
  unfold Obligations.CommandOnAbsentPortIsRefused
  intro s n w draw rest hi hr hn
  apply step_of_done
  rw [State.nextRequest_cons hr hi]
  simp [State.perform, hn]

/-- A host action that is a write of port n takes that one port from p to f p. -/
theorem step_hostWrite {s : State} {a : HostAction} {rest : List HostAction} {n : Nat} {p : Port} {f : Port → Port}
    (hr : ¬ s.halted) (hp : s.ports[n]? = some p) (hi : s.inbox = a :: rest)
    (ha : { s with inbox := rest }.perform a = .done ({ s with inbox := rest }.hostWrite n f)) :
    step s = .next { s with inbox := rest, ports := s.ports.set n (f p) } := by
  rw [step_of_done ((State.nextRequest_cons hr hi).trans ha)]
  simp [State.hostWrite, hp]

/-- Settles O7: each write of a register is one `hostWrite`. -/
theorem hostWritesOneRegister : Obligations.HostWritesOneRegister := by
  unfold Obligations.HostWritesOneRegister
  intro s hr
  refine ⟨fun hi => step_of_done (State.nextRequest_nil hr hi), fun n p rest hp => ?_⟩
  exact ⟨fun _ _ hi => step_hostWrite hr hp hi rfl, fun _ _ hi => step_hostWrite hr hp hi rfl,
    fun _ hi => step_hostWrite hr hp hi rfl, fun _ hi => step_hostWrite hr hp hi rfl,
    fun _ hi => step_hostWrite hr hp hi rfl, fun _ hi => step_hostWrite hr hp hi rfl,
    fun _ hi => step_hostWrite hr hp hi rfl, fun _ hi => step_hostWrite hr hp hi rfl,
    fun _ hi => step_hostWrite hr hp hi rfl, fun _ hi => step_hostWrite hr hp hi rfl,
    fun _ hi => step_hostWrite hr hp hi rfl, fun _ hi => step_hostWrite hr hp hi rfl⟩

/-- What one step can lead to from s. -/
inductive StepsTo (s : State) : State → Prop
  /-- no action is waiting -/
  | idle : StepsTo s s
  /-- a reset, the only step of a halted block (R142, R155) -/
  | reset {rest : List HostAction} : s.halted ∨ s.inbox = .reset :: rest →
      StepsTo s { s with inbox := rest }.resetBlock
  /-- the host writes a register or buffer of a port, none of which is STATUS (R25 to R38) -/
  | write {n : Nat} {p q : Port} {rest : List HostAction} : s.ports[n]? = some p → q.status = p.status →
      StepsTo s { s with inbox := rest, ports := s.ports.set n q }
  /-- a command (R29) -/
  | command {n : Nat} {w : CmdWord} {draw : EngineDraw} {rest : List HostAction} {i : Instr} {t : State} :
      ¬ s.halted → s.inbox = .writeCMD n w draw :: rest → n < s.ports.length → decode w = .command i →
      exec i ({ s with inbox := rest }.accept n w draw) = .next t → StepsTo s t
  /-- a word that is no command (R66) -/
  | illegal {n : Nat} {w : CmdWord} {draw : EngineDraw} {rest : List HostAction} {r : Reject} :
      ¬ s.halted → n < s.ports.length → decode w = .rejected r →
      StepsTo s (({ s with inbox := rest }.accept n w draw).raiseFault .illegalCommand w)

/-- A host write that keeps STATUS leads where `StepsTo.write` says. -/
theorem stepsTo_of_hostWrite {s t : State} {rest : List HostAction} {n : Nat} {f : Port → Port}
    (h : { s with inbox := rest }.hostWrite n f = .next t) (hf : ∀ p, (f p).status = p.status) : StepsTo s t := by
  obtain ⟨p, hp, rfl⟩ := State.hostWrite_next h
  exact .write hp (hf p)

/-- Every step is one of these. -/
theorem stepsTo_of_step {s t : State} (h : step s = .next t) : StepsTo s t := by
  by_cases hr : s.halted
  · rw [step_of_done (State.nextRequest_halted hr)] at h
    obtain ⟨rest, -, rfl⟩ := State.leaveHalt_next h
    exact .reset (.inl hr)
  cases hi : s.inbox with
  | nil =>
    rw [step_of_done (State.nextRequest_nil hr hi)] at h
    cases h; exact .idle
  | cons a rest =>
    have hreq := State.nextRequest_cons hr hi
    cases a with
    | writeCMD n w draw =>
      by_cases hn : n < s.ports.length
      · have hreq := State.nextRequest_writeCMD hr hi hn
        cases hw : decode w with
        | command i => rw [step_of_command hreq hw] at h; exact .command hr hi hn hw h
        | rejected r => rw [step_of_rejected hreq hw] at h; cases h; exact .illegal hr hn hw
      · rw [step_of_done (by simpa [State.perform, hn] using hreq)] at h; cases h
    | reset =>
      rw [step_of_done hreq] at h
      cases h; exact .reset (.inr hi)
    | _ =>
      rw [step_of_done hreq] at h
      exact stepsTo_of_hostWrite h fun _ => rfl

/-! ## What a command leaves unchanged on the issuing port -/

namespace PortFrame

variable {i : Instr} {p q : Port}

theorem refl : PortFrame i p p where
  v _ _ := rfl
  sb _ := rfl
  slen _ := rfl
  res _ := rfl
  ib _ := rfl
  ob _ := rfl
  pay _ := rfl
  pktOther := rfl
  olen := rfl
  cmd := rfl

theorem setV {j : Fin 8} {x : Word} (hi : writesV i j = true) (h : PortFrame i p q) : PortFrame i p (q.setV j x) :=
  { h with
    v := fun j' hj' => by
      have hne : j ≠ j' := by rintro rfl; rw [hi] at hj'; cases hj'
      rw [Port.setV_get, if_neg hne, h.v j' hj'] }

/-- The lemmas about `setStreamId` keep Lean from computing the 16 bytes of SB to compare the other registers. -/
theorem setStreamId {bytes : List Byte} (hi : writesStreamId i = true) (h : PortFrame i p q) :
    PortFrame i p (q.setStreamId bytes) where
  v := by simpa using h.v
  sb hn := by rw [hi] at hn; cases hn
  slen hn := by rw [hi] at hn; cases hn
  res := by simpa using h.res
  ib := by simpa using h.ib
  ob := by simpa using h.ob
  pay := by simpa using h.pay
  pktOther := by simpa using h.pktOther
  olen := by simpa using h.olen
  cmd := by simpa using h.cmd

theorem setOB {bytes : List Byte} (hi : writesOB i = true) (h : PortFrame i p q) : PortFrame i p (q.setOB bytes) :=
  { h with ob := fun hn => by rw [hi] at hn; cases hn }

theorem setRES {x : Word} (hi : writesRES i = true) (h : PortFrame i p q) : PortFrame i p (q.setRES x) :=
  { h with res := fun hn => by rw [hi] at hn; cases hn }

theorem setIB {bytes : List Byte} (h : PortFrame .decrypt p q) : PortFrame .decrypt p (q.setIB bytes) :=
  { h with ib := fun hn => absurd rfl hn }

theorem setPAY {bytes : List Byte} (h : PortFrame .encrypt p q) : PortFrame .encrypt p (q.setPAY bytes) :=
  { h with
    pay := fun hn => absurd rfl hn
    pktOther := by rw [Port.setPAY_pkt, h.pktOther] }

theorem setStatus {c : StatusCode} (h : PortFrame i p q) : PortFrame i p (q.setStatus c) := { h with }

end PortFrame

/-- Every answer of the pseudocode has `Q`; it may stop in any way. -/
abbrev Answers {α : Type} (Q : α → Prop) (x : Except Stop α) : Prop := Yields (fun _ => True) Q x

/-- A check or a read answers nothing itself: what counts is the rest. -/
theorem Yields.andThen {α β : Type} {R : β → Prop} {x : Except Stop α} {f : α → Except Stop β}
    (hf : ∀ a, Answers R (f a)) : Answers R (x >>= f) := by
  cases x with
  | ok a => exact hf a
  | error e => trivial

section
variable {i : Instr} {P : Params} {p : Port}

/-! ### PARSE writes the value registers of its type, or SB and SLEN -/

theorem parseAstBody_frame : Answers (PortFrame .parseAst p) (parseAstBody P p) :=
  .andThen fun _ => .andThen fun _ => .pure (.setV rfl .refl)

theorem parseAlBody_frame : Answers (PortFrame .parseAl p) (parseAlBody P p) :=
  .andThen fun _ => .andThen fun _ => .pure (.setV rfl (.setV rfl .refl))

theorem parseToffBody_frame : Answers (PortFrame .parseToff p) (parseToffBody P p) :=
  .andThen fun _ => .andThen fun _ => .pure (.setV rfl .refl)

theorem parseTsnBody_frame : Answers (PortFrame .parseTsn p) (parseTsnBody P p) :=
  .andThen fun _ => .andThen fun _ => .pure (.setV rfl .refl)

theorem parseCvoBody_frame : Answers (PortFrame .parseCvo p) (parseCvoBody P p) :=
  .andThen fun _ => .andThen fun _ => .pure (.setV rfl .refl)

theorem parseCvorawBody_frame : Answers (PortFrame .parseCvoraw p) (parseCvorawBody P p) :=
  .andThen fun _ => .andThen fun _ => .pure (.setV rfl .refl)

theorem parsePdlBody_frame : Answers (PortFrame .parsePdl p) (parsePdlBody P p) :=
  .andThen fun _ => .andThen fun _ => .andThen fun _ => .pure (.setV rfl (.setV rfl .refl))

theorem parseVctBody_frame : Answers (PortFrame .parseVct p) (parseVctBody P p) :=
  .andThen fun _ => .andThen fun _ => .andThen fun _ => .pure (.setV rfl .refl)

theorem parseVtBody_frame : Answers (PortFrame .parseVt p) (parseVtBody P p) :=
  .andThen fun _ => .andThen fun _ => .andThen fun _ => .andThen fun _ => .andThen fun _ => .andThen fun _ =>
    .andThen fun _ => .pure (.setV rfl (.setV rfl (.setV rfl (.setV rfl (.setV rfl (.setV rfl .refl))))))

theorem parseStreamIdBody_frame (hi : writesStreamId i = true) :
    Answers (PortFrame i p) (parseStreamIdBody P p) :=
  .andThen fun _ => .andThen fun _ => .andThen fun _ => .andThen fun _ => .pure (.setStreamId hi .refl)

theorem parseFmBody_frame : Answers (PortFrame .parseFm p) (parseFmBody P p) := by
  have hv {q : Port} {j : Fin 8} {x : Word} (h : PortFrame .parseFm p q) : PortFrame .parseFm p (q.setV j x) :=
    .setV rfl h
  refine .andThen fun _ => .andThen fun b0 => ?_
  dsimp only
  split
  · exact .andThen fun _ => .andThen fun _ => .pure (hv (hv (hv (hv (hv (hv (hv (hv .refl))))))))
  · exact .pure (hv (hv (hv (hv (hv (hv (hv (hv .refl))))))))

/-! ### WRITE writes OB -/

theorem writeAstBody_frame : Answers (PortFrame .writeAst p) (writeAstBody P p) :=
  .andThen fun _ => .andThen fun _ => .andThen fun _ => .andThen fun _ => .pure (.setOB rfl .refl)

theorem writeAlBody_frame : Answers (PortFrame .writeAl p) (writeAlBody P p) :=
  .andThen fun _ => .andThen fun _ => .andThen fun _ => .andThen fun _ => .andThen fun _ => .pure (.setOB rfl .refl)

theorem writeToffBody_frame : Answers (PortFrame .writeToff p) (writeToffBody P p) :=
  .andThen fun _ => .andThen fun _ => .andThen fun _ => .andThen fun _ => .pure (.setOB rfl .refl)

theorem writeTsnBody_frame : Answers (PortFrame .writeTsn p) (writeTsnBody P p) :=
  .andThen fun _ => .andThen fun _ => .andThen fun _ => .andThen fun _ => .pure (.setOB rfl .refl)

theorem writeCvoBody_frame : Answers (PortFrame .writeCvo p) (writeCvoBody P p) :=
  .andThen fun _ => .andThen fun _ => .andThen fun _ => .pure (.setOB rfl .refl)

theorem writeCvorawBody_frame : Answers (PortFrame .writeCvoraw p) (writeCvorawBody P p) :=
  .andThen fun _ => .andThen fun _ => .andThen fun _ => .pure (.setOB rfl .refl)

theorem writePdlBody_frame : Answers (PortFrame .writePdl p) (writePdlBody P p) :=
  .andThen fun _ => .andThen fun _ => .andThen fun _ => .andThen fun _ => .andThen fun _ => .pure (.setOB rfl .refl)

theorem writeVctBody_frame : Answers (PortFrame .writeVct p) (writeVctBody P p) :=
  .andThen fun _ => .andThen fun _ => .andThen fun _ => .pure (.setOB rfl .refl)

theorem writeVtBody_frame : Answers (PortFrame .writeVt p) (writeVtBody P p) :=
  .andThen fun _ => .andThen fun _ => .andThen fun _ => .andThen fun _ => .andThen fun _ => .andThen fun _ =>
    .andThen fun _ => .andThen fun _ => .andThen fun _ => .andThen fun _ => .andThen fun _ => .andThen fun _ =>
    .andThen fun _ => .andThen fun _ => .pure (.setOB rfl .refl)

theorem writeStreamIdBody_frame (hi : writesOB i = true) : Answers (PortFrame i p) (writeStreamIdBody P p) :=
  .andThen fun _ => .andThen fun _ => .andThen fun _ => .andThen fun _ => .andThen fun _ => .andThen fun _ =>
    .pure (.setOB hi .refl)

theorem writeFmBody_frame : Answers (PortFrame .writeFm p) (writeFmBody P p) := by
  refine .andThen fun _ => .andThen fun _ => .andThen fun _ => .andThen fun _ => .andThen fun _ => .andThen fun _ =>
    .andThen fun _ => .andThen fun _ => .andThen fun _ => .andThen fun _ => .andThen fun _ => .andThen fun _ => ?_
  split <;> exact .pure (.setOB rfl .refl)

/-! ### VSIZE, VP9LID and OVERHEAD write RES -/

theorem vsizeBody_frame {size : Nat} (hi : writesRES i = true) : Answers (PortFrame i p) (vsizeBody size P p) :=
  .pure (.setRES hi .refl)

theorem vsizeStreamIdBody_frame (hi : writesRES i = true) : Answers (PortFrame i p) (vsizeStreamIdBody P p) :=
  .andThen fun _ => .pure (.setRES hi .refl)

theorem vsizeFmBody_frame : Answers (PortFrame .vsizeFm p) (vsizeFmBody P p) :=
  .andThen fun _ => .andThen fun _ => .andThen fun _ => .andThen fun _ => .pure (.setRES rfl .refl)

theorem vp9lidBody_frame : Answers (PortFrame .vp9lid p) (vp9lidBody P p) :=
  .andThen fun _ => .andThen fun _ => .andThen fun _ => .andThen fun _ => .pure (.setRES rfl .refl)

theorem overheadBody_frame {k : KeyState} : Answers (PortFrame .overhead p) (overheadBody k P p) := by
  unfold overheadBody
  split
  · exact .andThen fun _ => .pure (.setRES rfl .refl)
  · exact .pure (.setRES rfl .refl)

end

/-! ## What a wrapper command writes when it ends ok -/

/-- The SETKEY of a direction (R63). -/
def Direction.setkey : Direction → Instr
  | .out => .setkeyOut
  | .inn => .setkeyIn

/-- The writes of the key state of direction d, from k, that command i can make (R34): its SETKEY keys it with the
engine's new session, and ENCRYPT or DECRYPT gives it the session the engine goes on with. -/
inductive KeyWrite (P : Params) (draw : EngineDraw) : Instr → Direction → KeyState → KeyState → Prop
  | keyed {d : Direction} {k : KeyState} {row : Suite} {session : Session} :
      k.ks = false → row ∈ P.suites → draw.create = some session →
      KeyWrite P draw d.setkey d k ⟨true, some row.tag, some row.tagLen, some session⟩
  | advanced {i : Instr} {d : Direction} {k : KeyState} (session : Session) :
      writesKey i d = true → k.ks = true → KeyWrite P draw i d k { k with sess := some session }

/-- Whatever the engine answers, the rest of the command makes only the writes listed for it. -/
abbrev EngineCall.Writes (P : Params) (i : Instr) (d : Direction) (k : KeyState) (p : Port) (call : EngineCall) : Prop :=
  ∀ draw, Answers (fun r => PortFrame i p r.2 ∧ KeyWrite P draw i d k r.1) (call.finish draw)

section
variable {P : Params} {draw : EngineDraw} {i : Instr} {d : Direction} {k k' : KeyState} {p : Port}

theorem setkeyBody_writes : Answers (EngineCall.Writes P d.setkey d k p) (setkeyBody d P k p) := by
  refine .bind (.require trivial) fun _ hks => .andThen fun v0 => ?_
  cases hsuite : P.suiteOf v0 with
  | none => trivial
  | some row =>
    refine .andThen fun _ => .pure fun draw => ?_
    dsimp only
    split
    · trivial
    case h_2 session hcreate => exact .pure ⟨.refl, .keyed hks (List.mem_of_find?_eq_some hsuite) hcreate⟩

theorem encryptBody_writes : Answers (EngineCall.Writes P .encrypt .out k p) (encryptBody P k p) := by
  refine .bind (.require trivial) fun _ hks => .andThen fun _ => .andThen fun _ => .andThen fun _ => .andThen fun _ =>
    .andThen fun _ => .andThen fun _ => .andThen fun _ => .andThen fun _ => .andThen fun _ => .andThen fun _ =>
    .pure fun draw => ?_
  dsimp only
  split
  · trivial
  · exact .andThen fun _ => .pure ⟨.setPAY .refl, .advanced _ rfl hks⟩

theorem decryptBody_writes : Answers (EngineCall.Writes P .decrypt .inn k p) (decryptBody P k p) := by
  refine .bind (.require trivial) fun _ hks => .andThen fun _ => .andThen fun _ => .andThen fun _ =>
    .pure fun draw => ?_
  dsimp only
  split
  · trivial
  · trivial
  · exact .andThen fun _ => .pure ⟨.setIB .refl, .advanced _ rfl hks⟩

/-- Only the commands listed for a direction write its key state. -/
theorem KeyWrite.writesKey (h : KeyWrite P draw i d k k') : writesKey i d = true := by
  cases h with
  | keyed => cases d <;> rfl
  | advanced _ hi => exact hi

/-- After a write the direction is keyed. -/
theorem KeyWrite.ks (h : KeyWrite P draw i d k k') : k'.ks = true := by
  cases h with
  | keyed => rfl
  | advanced _ _ hks => exact hks

/-- Only a direction that is not keyed is keyed: a keyed one keeps its suite (R34). -/
theorem KeyWrite.suite_of_keyed (h : KeyWrite P draw i d k k') (hks : k.ks = true) :
    k'.suite = k.suite ∧ k'.tagLen = k.tagLen := by
  cases h with
  | keyed hks' => rw [hks] at hks'; cases hks'
  | advanced => exact ⟨rfl, rfl⟩

/-- A command other than SETKEY finds the direction keyed and changes SESS alone. -/
theorem KeyWrite.keyed_of_ne_setkey (h : KeyWrite P draw i d k k') (hi : i ≠ d.setkey) : k.ks = true := by
  cases h with
  | keyed => exact absurd rfl hi
  | advanced _ _ hks => exact hks

/-- A direction that was not keyed becomes keyed by its SETKEY, with the suite's values and the engine's session. -/
theorem KeyWrite.of_not_keyed (h : KeyWrite P draw i d k k') (hks : k.ks = false) :
    i = d.setkey ∧ k'.suite.isSome ∧ k'.tagLen.isSome ∧ k'.sess = draw.create := by
  cases h with
  | keyed _ _ hcreate => exact ⟨rfl, rfl, rfl, hcreate.symm⟩
  | advanced _ _ hks' => rw [hks] at hks'; cases hks'

/-- The writes keep what R34 says of a direction. -/
theorem KeyWrite.valid (h : KeyWrite P draw i d k k') (hk : k.Valid P) : k'.Valid P := by
  cases h with
  | keyed _ hrow _ => exact .inr ⟨rfl, rfl, _, hrow, rfl, rfl⟩
  | advanced _ _ hks =>
    rcases hk with ⟨hks', -⟩ | ⟨-, -, hrow⟩
    · rw [hks] at hks'; cases hks'
    · exact .inr ⟨hks, rfl, hrow⟩

end

/-! ## What a command can do -/

/-- What command i, issued by the port p of a running block at s, can lead to (R19, R24). The questions asked so far are
the model's own field, log entry 6. -/
inductive Effect (i : Instr) (s : State) (p : Port) : State → Prop
  | port {q : Port} : PortFrame i p q → Effect i s p (s.setPort (q.setStatus .ok))
  | wrapper {d : Direction} {k : KeyState} {q : Port} (asked : List EngineQuestion) : PortFrame i p q →
      KeyWrite s.params s.draw i d (s.key d) k →
      Effect i s p ((({ s with asked := asked } : State).setKey d k).setPort (q.setStatus .ok))
  | fail (asked : List EngineQuestion) (c : StatusCode) :
      Effect i s p (({ s with asked := asked } : State).setPort (p.setStatus c))
  | fault (asked : List EngineQuestion) (f : FaultKind) :
      Effect i s p { s with asked := asked, fault := f.register, fcmd := some (encode i) }

section
variable {i : Instr} {s t : State} {p : Port}

/-- A command that faults at a running block writes FAULT and FCMD alone (R141). -/
theorem Effect.of_raiseFault (hr : ¬ s.halted) (asked : List EngineQuestion) (f : FaultKind) :
    Effect i s p (({ s with asked := asked } : State).raiseFault f (encode i)) := by
  rw [State.raiseFault_of_running (s := { s with asked := asked }) hr]
  exact .fault asked f

theorem runPort_effect {body : Params → Port → Except Stop Port} (hs : s.Ready p)
    (h : runPort i body s = .next t) (hbody : Answers (PortFrame i p) (body s.params p)) : Effect i s p t := by
  obtain ⟨hr, p', hp', hcases⟩ := runPort_next h
  obtain rfl : p = p' := Option.some.inj (hs.2.symm.trans hp')
  rcases hcases with ⟨q, hb, rfl⟩ | ⟨c, -, rfl⟩ | ⟨f, -, rfl⟩
  · rw [hb] at hbody; exact .port hbody
  · exact .fail s.asked c
  · exact .of_raiseFault hr s.asked f

theorem runEngine_effect {d : Direction} {body : Params → KeyState → Port → Except Stop EngineCall} (hs : s.Ready p)
    (h : runEngine i d body s = .next t)
    (hbody : Answers (EngineCall.Writes s.params i d (s.key d) p) (body s.params (s.key d) p)) : Effect i s p t := by
  obtain ⟨hr, p', hp', hcases⟩ := runEngine_next h
  obtain rfl : p = p' := Option.some.inj (hs.2.symm.trans hp')
  rcases hcases with ⟨c, -, rfl⟩ | ⟨f, -, rfl⟩ | ⟨call, hb, hfinish⟩
  · exact .fail s.asked c
  · exact .of_raiseFault hr s.asked f
  · rw [hb] at hbody
    have hwrites := hbody s.draw
    rcases hfinish with ⟨k, q, hf, rfl⟩ | ⟨c, -, rfl⟩ | ⟨f, -, rfl⟩
    · rw [hf] at hwrites; exact .wrapper _ hwrites.1 hwrites.2
    · exact .fail _ c
    · exact .of_raiseFault hr _ f

/-- Every command leads where `Effect` says. -/
theorem exec_effect (hs : s.Ready p) (h : exec i s = .next t) : Effect i s p t := by
  cases i with
  | parseAst => exact runPort_effect hs h parseAstBody_frame
  | parseAl => exact runPort_effect hs h parseAlBody_frame
  | parseToff => exact runPort_effect hs h parseToffBody_frame
  | parseTsn => exact runPort_effect hs h parseTsnBody_frame
  | parseCvo => exact runPort_effect hs h parseCvoBody_frame
  | parseCvoraw => exact runPort_effect hs h parseCvorawBody_frame
  | parsePdl => exact runPort_effect hs h parsePdlBody_frame
  | parseVct => exact runPort_effect hs h parseVctBody_frame
  | parseVt => exact runPort_effect hs h parseVtBody_frame
  | parseRsid | parseRrsid => exact runPort_effect hs h (parseStreamIdBody_frame rfl)
  | parseFm => exact runPort_effect hs h parseFmBody_frame
  | writeAst => exact runPort_effect hs h writeAstBody_frame
  | writeAl => exact runPort_effect hs h writeAlBody_frame
  | writeToff => exact runPort_effect hs h writeToffBody_frame
  | writeTsn => exact runPort_effect hs h writeTsnBody_frame
  | writeCvo => exact runPort_effect hs h writeCvoBody_frame
  | writeCvoraw => exact runPort_effect hs h writeCvorawBody_frame
  | writePdl => exact runPort_effect hs h writePdlBody_frame
  | writeVct => exact runPort_effect hs h writeVctBody_frame
  | writeVt => exact runPort_effect hs h writeVtBody_frame
  | writeRsid | writeRrsid => exact runPort_effect hs h (writeStreamIdBody_frame rfl)
  | writeFm => exact runPort_effect hs h writeFmBody_frame
  | vsizeAst | vsizeAl | vsizeToff | vsizeTsn | vsizeCvo | vsizeCvoraw | vsizePdl | vsizeVct | vsizeVt =>
    exact runPort_effect (body := vsizeBody _) hs h (vsizeBody_frame rfl)
  | vsizeRsid | vsizeRrsid => exact runPort_effect hs h (vsizeStreamIdBody_frame rfl)
  | vsizeFm => exact runPort_effect hs h vsizeFmBody_frame
  | vp9lid => exact runPort_effect hs h vp9lidBody_frame
  | setkeyOut => exact runEngine_effect hs h (setkeyBody_writes (d := .out))
  | setkeyIn => exact runEngine_effect hs h (setkeyBody_writes (d := .inn))
  | encrypt => exact runEngine_effect hs h encryptBody_writes
  | decrypt => exact runEngine_effect hs h decryptBody_writes
  | overhead => exact runPort_effect hs h overheadBody_frame

namespace Effect

/-- The model's inputs are as they were (R12, R42, R149). -/
theorem inputs (h : Effect i s p t) :
    t.params = s.params ∧ t.cur = s.cur ∧ t.draw = s.draw ∧ t.inbox = s.inbox := by
  cases h <;> simp

/-- The issuing port keeps what its command does not write. -/
theorem portFrame (h : Effect i s p t) (hp : s.port? = some p) : ∃ q, t.port? = some q ∧ PortFrame i p q := by
  cases h with
  | port hq => exact ⟨_, State.setPort_port? _ hp, hq.setStatus⟩
  | wrapper asked hq => exact ⟨_, State.setPort_port? _ ((State.setKey_port? ..).trans hp), hq.setStatus⟩
  | fail asked c => exact ⟨_, State.setPort_port? (s := { s with asked := asked }) _ hp, .setStatus .refl⟩
  | fault asked f => exact ⟨p, hp, .refl⟩

/-- No other port is written (R152). -/
theorem otherPorts (h : Effect i s p t) :
    t.ports.length = s.ports.length ∧ ∀ n, n ≠ s.cur → t.ports[n]? = s.ports[n]? := by
  have hset (q : Port) : (s.ports.set s.cur q).length = s.ports.length ∧
      ∀ n, n ≠ s.cur → (s.ports.set s.cur q)[n]? = s.ports[n]? :=
    ⟨List.length_set, fun n hn => List.getElem?_set_ne hn.symm⟩
  cases h with
  | port | wrapper | fail => simpa using hset _
  | fault => exact ⟨rfl, fun _ _ => rfl⟩

/-- The key state of a direction is as it was, or the command ended ok with a write of it. -/
theorem key (h : Effect i s p t) (hp : s.port? = some p) (d : Direction) :
    t.key d = s.key d ∨
    (KeyWrite s.params s.draw i d (s.key d) (t.key d) ∧ ∃ q, t.port? = some q ∧ q.status = some 0#8) := by
  cases h with
  | port => exact .inl (by simp)
  | wrapper asked hq hk =>
    rename_i e k q
    by_cases hd : d = e
    · subst hd
      exact .inr ⟨by simpa using hk, _, State.setPort_port? _ ((State.setKey_port? ..).trans hp), rfl⟩
    · left
      rw [State.setPort_key, State.setKey_key_other _ _ _ _ hd]
      exact State.key_congr rfl rfl d
  | fail asked => exact .inl (State.key_congr rfl rfl d)
  | fault asked => exact .inl (State.key_congr rfl rfl d)

/-- A block that still runs took no fault. -/
theorem fault_of_running (h : Effect i s p t) (hr : ¬ t.halted) : t.fault = s.fault ∧ t.fcmd = s.fcmd := by
  cases h with
  | port | wrapper | fail => simp
  | fault asked f => exact absurd f.register_flt hr

end Effect

end

/-- Settles O51, part by part from what the command can lead to. -/
theorem frameOfEveryCommand : Obligations.FrameOfEveryCommand := by
  unfold Obligations.FrameOfEveryCommand
  intro i s t p hs hexec
  have heffect := exec_effect hs hexec
  obtain ⟨hlength, hother⟩ := heffect.otherPorts
  refine ⟨heffect.portFrame hs.2, hlength, hother, fun d hd => ?_, fun hout hin d => ?_, heffect.fault_of_running,
    heffect.inputs⟩
  · rcases heffect.key hs.2 d with hkey | ⟨hkey, -⟩
    · exact hkey
    · rw [hkey.writesKey] at hd; cases hd
  · rcases heffect.key hs.2 d with hkey | ⟨hkey, -⟩
    · rw [hkey]; exact ⟨rfl, rfl, rfl⟩
    · have hks : (s.key d).ks = true := hkey.keyed_of_ne_setkey (by cases d <;> assumption)
      exact ⟨hkey.ks.trans hks.symm, hkey.suite_of_keyed hks⟩

/-! ## The key state has one transition -/

/-- The state a command is performed at has its issuing port (R42). -/
theorem State.accept_ready {s : State} {n : Nat} (hr : ¬ s.halted) (hn : n < s.ports.length) (w : CmdWord)
    (draw : EngineDraw) (rest : List HostAction) :
    ({ s with inbox := rest }.accept n w draw).Ready { s.ports[n] with cmd := w } :=
  ⟨hr, State.accept_port? (List.getElem?_eq_getElem hn) w draw⟩

theorem State.accept_key (s : State) (n : Nat) (w : CmdWord) (draw : EngineDraw) (rest : List HostAction)
    (d : Direction) : ({ s with inbox := rest }.accept n w draw).key d = s.key d :=
  State.key_congr rfl rfl d

/-- Every step but a reset leaves the key state of a direction as it was, or is a command that ends ok with a write of
it. -/
theorem step_key {s t : State} (h : step s = .next t) (hr : ¬ s.halted) (hreset : s.inbox.head? ≠ some .reset)
    (d : Direction) :
    t.key d = s.key d ∨ ∃ n i draw q, s.inbox.head? = some (.writeCMD n (encode i) draw) ∧
      KeyWrite s.params draw i d (s.key d) (t.key d) ∧ t.ports[n]? = some q ∧ q.status = some 0#8 := by
  cases stepsTo_of_step h with
  | idle => exact .inl rfl
  | reset hcause =>
    rcases hcause with hhalted | hi
    · exact absurd hhalted hr
    · exact absurd (by rw [hi]; rfl) hreset
  | write => exact .inl (State.key_congr rfl rfl d)
  | illegal => exact .inl (State.key_congr (by simp [State.accept]) (by simp [State.accept]) d)
  | @command n w draw rest i _ _ hi hn hw hexec =>
    have hs := State.accept_ready hr hn w draw rest
    have heffect := exec_effect hs hexec
    obtain ⟨-, hcur, -⟩ := heffect.inputs
    rw [← State.accept_key s n w draw rest d]
    refine (heffect.key hs.2 d).imp id fun ⟨hkey, q, hport, hok⟩ => ?_
    have hq : t.ports[n]? = some q := by rw [State.port?, hcur] at hport; exact hport
    exact ⟨n, i, draw, q, by rw [hi, encode_of_decode hw]; rfl, hkey, hq, hok⟩

/-- Settles O52: the one write that keys a direction is its SETKEY. -/
theorem keyStateHasOneTransition : Obligations.KeyStateHasOneTransition := by
  unfold Obligations.KeyStateHasOneTransition
  intro s t d hr hstep hreset
  rcases step_key hstep hr hreset d with hkey | ⟨n, i, draw, q, hi, hkey, hq, hok⟩
  · rw [hkey]
    exact ⟨fun hks => ⟨hks, rfl, rfl⟩, fun hks hks' => by rw [hks] at hks'; cases hks'⟩
  · refine ⟨fun hks => ⟨hkey.ks, hkey.suite_of_keyed hks⟩, fun hks _ => ?_⟩
    obtain ⟨rfl, hvalues⟩ := hkey.of_not_keyed hks
    exact ⟨n, draw, q, by rw [hi]; cases d <;> rfl, hq, hok, hvalues⟩

/-! ## The invariant of every run -/

/-- The number of every status is one of R139's. -/
theorem Port.setStatus_statusValid (p : Port) (c : StatusCode) : (p.setStatus c).StatusValid := by
  intro x hx
  cases hx
  cases c <;> decide

namespace State.Valid

variable {s : State}

/-- The invariant says nothing of the questions asked, the engine's answer and the actions to come. -/
theorem withInputs (h : s.Valid) (draw : EngineDraw) (asked : List EngineQuestion) (inbox : List HostAction) :
    ({ s with draw := draw, asked := asked, inbox := inbox } : State).Valid := { h with }

theorem setPorts (h : s.Valid) {q : Port} (n : Nat) (hq : q.StatusValid) :
    ({ s with ports := s.ports.set n q } : State).Valid :=
  { h with
    ports := by simpa using h.ports
    cur := by simpa using h.cur
    status := fun p hp => by
      rcases List.mem_or_eq_of_mem_set hp with hp | rfl
      · exact h.status p hp
      · exact hq }

theorem setKey (h : s.Valid) {d : Direction} {k : KeyState} (hk : k.Valid s.params) : (s.setKey d k).Valid := by
  cases d with
  | out => exact { h with keyOut := hk }
  | inn => exact { h with keyIn := hk }

theorem key (h : s.Valid) (d : Direction) : (s.key d).Valid s.params := by
  cases d with
  | out => exact h.keyOut
  | inn => exact h.keyIn

/-- A CMD write changes no STATUS. -/
theorem accept (h : s.Valid) {n : Nat} (hn : n < s.ports.length) (w : CmdWord) (draw : EngineDraw) :
    (s.accept n w draw).Valid :=
  { h with
    ports := by simpa [State.accept] using h.ports
    cur := by simpa [State.accept] using hn
    status := fun p hp => by
      obtain ⟨m, hm⟩ := List.mem_iff_getElem?.mp hp
      simp only [State.accept, List.getElem?_modify, Option.map_eq_map, Option.map_eq_some_iff] at hm
      obtain ⟨p', hp', rfl⟩ := hm
      have hvalid := h.status p' (List.mem_of_getElem? hp')
      split <;> exact hvalid }

/-- Reset leads to a valid state from any state of a block with a port (R155, R156). -/
theorem resetBlock (h : 1 ≤ s.params.nports) : s.resetBlock.Valid where
  hasPort := h
  ports := List.length_replicate
  cur := h.trans_eq List.length_replicate.symm
  status p hp x hx := by
    rw [State.eq_reset_of_mem_resetOf hp] at hx; cases hx
  keyOut := .inl ⟨rfl, rfl, rfl, rfl⟩
  keyIn := .inl ⟨rfl, rfl, rfl, rfl⟩
  fault := .inl ⟨rfl, rfl⟩

end State.Valid

/-- A command at a valid state leaves FAULT and FCMD as R140 says: O50 gives the kinds that it may raise. -/
theorem exec_faultValid {i : Instr} {s t : State} {p : Port} (hvalid : s.Valid) (hs : s.Ready p)
    (h : exec i s = .next t) : t.FaultValid := by
  rcases outcomesFollowTheTables i s t p hvalid hs h with ⟨hr, -⟩ | ⟨asked, ⟨c, -, rfl⟩ | ⟨k, hk, rfl⟩⟩
  · obtain ⟨hfault, hfcmd⟩ := (exec_effect hs h).fault_of_running hr
    unfold State.FaultValid
    rw [hfault, hfcmd]
    exact hvalid.fault
  · exact hvalid.fault
  · exact .inr ⟨k, encode i, rfl, rfl, .inr ⟨i, rfl, hk⟩⟩

/-- Every command keeps the invariant. -/
theorem exec_valid {i : Instr} {s t : State} {p : Port} (hvalid : s.Valid) (hs : s.Ready p)
    (h : exec i s = .next t) : t.Valid := by
  have hfault := exec_faultValid hvalid hs h
  cases exec_effect hs h with
  | port => exact hvalid.setPorts _ (Port.setStatus_statusValid _ _)
  | wrapper asked _ hk =>
    exact ((hvalid.withInputs s.draw asked s.inbox).setKey (hk.valid (hvalid.key _))).setPorts _
      (Port.setStatus_statusValid _ _)
  | fail asked c => exact (hvalid.withInputs s.draw asked s.inbox).setPorts _ (Port.setStatus_statusValid _ _)
  | fault asked f => exact { hvalid with fault := hfault }

/-- Settles O55, one kind of step at a time. -/
theorem stepKeepsValid : Obligations.StepKeepsValid := by
  unfold Obligations.StepKeepsValid
  intro s t hvalid hstep
  have hrest (rest : List HostAction) : ({ s with inbox := rest } : State).Valid :=
    hvalid.withInputs s.draw s.asked rest
  cases stepsTo_of_step hstep with
  | idle => exact hvalid
  | reset => exact .resetBlock hvalid.hasPort
  | @write n p q rest hp hstatus =>
    refine (hrest rest).setPorts n fun x hx => ?_
    exact hvalid.status p (List.mem_of_getElem? hp) x (hstatus ▸ hx)
  | @command n w draw rest _ _ hr _ hn _ hexec =>
    exact exec_valid ((hrest rest).accept hn w draw) (State.accept_ready hr hn w draw rest) hexec
  | @illegal n w draw rest r hr hn hw =>
    rw [State.raiseFault_of_running (State.accept_ready hr hn w draw rest).1]
    exact { (hrest rest).accept hn w draw with
      fault := .inr ⟨.illegalCommand, w, rfl, rfl, .inl ⟨rfl, encode_ne_of_rejected hw⟩⟩ }

end Sys2Proof.Machine

/-! Commands of different ports (spec/10_state.md R53). What a command does is settled by what it finds on its own port
and in the key state of its own direction: `exec_sameOperands` says so once for every command. A command of another port
and another direction writes neither, so it may come before or after. -/

namespace Sys2Proof.Machine

/-! ## What a command finds -/

/-- Command i finds the same at s and at t: the halt latch, the parameters, the engine's answer, the issuing port, and
the key state of its direction when it has one (R53). -/
structure State.SameOperands (i : Instr) (s t : State) : Prop where
  halted : t.halted ↔ s.halted
  params : t.params = s.params
  draw : t.draw = s.draw
  port : t.port? = s.port?
  key : ∀ d, wrapperDirection i = some d → t.key d = s.key d

namespace State.SameOperands

variable {i : Instr} {s t s' t' : State} {p : Port}

theorem setPort (h : s.SameOperands i t) (hp : s.port? = some p) (q : Port) :
    (s.setPort q).SameOperands i (t.setPort q) where
  halted := h.halted
  params := h.params
  draw := h.draw
  port := (State.setPort_port? q (h.port.trans hp)).trans (State.setPort_port? q hp).symm
  key d hd := by simpa using h.key d hd

theorem ask (h : s.SameOperands i t) (q : EngineQuestion) : (s.ask q).SameOperands i (t.ask q) where
  halted := h.halted
  params := h.params
  draw := h.draw
  port := h.port
  key d hd := by simpa using h.key d hd

theorem setKey {d : Direction} (h : s.SameOperands i t) (hd : wrapperDirection i = some d) (k : KeyState) :
    (s.setKey d k).SameOperands i (t.setKey d k) where
  halted := by rw [State.halted, State.halted, State.setKey_flt, State.setKey_flt]; exact h.halted
  params := by simpa using h.params
  draw := by simpa using h.draw
  port := by simpa using h.port
  key e he := by
    obtain rfl : d = e := Option.some.inj (hd.symm.trans he)
    simp

theorem raiseFault (h : s.SameOperands i t) (f : FaultKind) (w : CmdWord) :
    (s.raiseFault f w).SameOperands i (t.raiseFault f w) where
  halted := iff_of_true (t.raiseFault_halted f w) (s.raiseFault_halted f w)
  params := by simpa using h.params
  draw := by simpa using h.draw
  port := by simpa [State.port?] using h.port
  key d hd := by
    rw [State.key_congr (t.raiseFault_keyOut f w) (t.raiseFault_keyIn f w),
      State.key_congr (s.raiseFault_keyOut f w) (s.raiseFault_keyIn f w), h.key d hd]

/-- A command that stops early at both states stops in the same way (R19). -/
theorem stopped {stop : Stop} (h : s.SameOperands i t) (hp : s.port? = some p)
    (hs : s.stopped i p stop = .next s') (ht : t.stopped i p stop = .next t') : s'.SameOperands i t' := by
  rcases State.stopped_next hs with ⟨c, rfl, rfl⟩ | ⟨f, rfl, rfl⟩
  · cases ht; exact h.setPort hp _
  · cases ht; exact h.raiseFault f _

end State.SameOperands

section
variable {i : Instr} {s t s' t' : State}

theorem runPort_sameOperands {body : Params → Port → Except Stop Port} (h : s.SameOperands i t)
    (hs : runPort i body s = .next s') (ht : runPort i body t = .next t') : s'.SameOperands i t' := by
  obtain ⟨hrs, p, hps, -⟩ := runPort_next hs
  have hrt : ¬ t.halted := h.halted.not.mpr hrs
  have hpt : t.port? = some p := h.port.trans hps
  have hbody : body t.params p = body s.params p := by rw [h.params]
  cases hb : body s.params p with
  | ok q =>
    rw [runPort_of_ok hrs hps hb] at hs
    rw [runPort_of_ok hrt hpt (hbody.trans hb)] at ht
    cases hs; cases ht
    exact h.setPort hps _
  | error stop =>
    rw [runPort_of_error hrs hps hb] at hs
    rw [runPort_of_error hrt hpt (hbody.trans hb)] at ht
    exact h.stopped hps hs ht

theorem runEngine_sameOperands {d : Direction} {body : Params → KeyState → Port → Except Stop EngineCall}
    (hd : wrapperDirection i = some d) (h : s.SameOperands i t) (hs : runEngine i d body s = .next s')
    (ht : runEngine i d body t = .next t') : s'.SameOperands i t' := by
  obtain ⟨hrs, p, hps, -⟩ := runEngine_next hs
  have hrt : ¬ t.halted := h.halted.not.mpr hrs
  have hpt : t.port? = some p := h.port.trans hps
  have hbody : body t.params (t.key d) p = body s.params (s.key d) p := by rw [h.params, h.key d hd]
  cases hb : body s.params (s.key d) p with
  | error stop =>
    rw [runEngine_of_error hrs hps hb] at hs
    rw [runEngine_of_error hrt hpt (hbody.trans hb)] at ht
    exact h.stopped hps hs ht
  | ok call =>
    have hask := h.ask call.question
    have hfinish : call.finish t.draw = call.finish s.draw := by rw [h.draw]
    cases hf : call.finish s.draw with
    | ok r =>
      rw [runEngine_of_answer hrs hps hb hf] at hs
      rw [runEngine_of_answer hrt hpt (hbody.trans hb) (hfinish.trans hf)] at ht
      cases hs; cases ht
      exact (hask.setKey hd r.1).setPort ((State.setKey_port? ..).trans hps) _
    | error stop =>
      rw [runEngine_of_refusal hrs hps hb hf] at hs
      rw [runEngine_of_refusal hrt hpt (hbody.trans hb) (hfinish.trans hf)] at ht
      exact hask.stopped hps hs ht

/-- A command that finds the same at two states leaves the same: on its port, in the key state of its direction, and in
whether the block is halted. -/
theorem exec_sameOperands (h : s.SameOperands i t) (hs : exec i s = .next s') (ht : exec i t = .next t') :
    s'.SameOperands i t' := by
  cases i with
  | setkeyOut | setkeyIn | encrypt | decrypt => exact runEngine_sameOperands rfl h hs ht
  | overhead =>
    have hkey : t.keyOut = s.keyOut := h.key .out rfl
    change runPort .overhead (overheadBody t.keyOut) t = .next t' at ht
    rw [hkey] at ht
    exact runPort_sameOperands h hs ht
  | vsizeAst | vsizeAl | vsizeToff | vsizeTsn | vsizeCvo | vsizeCvoraw | vsizePdl | vsizeVct | vsizeVt =>
    exact runPort_sameOperands (body := vsizeBody _) h hs ht
  | _ => exact runPort_sameOperands h hs ht

end

/-! ## A command written to CMD of a port -/

/-- A command writes the key state of its own direction only (R53). -/
theorem wrapperDirection_of_writesKey {i : Instr} {d : Direction} (h : writesKey i d = true) :
    wrapperDirection i = some d := by
  unfold writesKey at h
  split at h
  case h_5 => cases h
  all_goals rfl

/-- A block that steps with no reset to come is running: a halted one waits for a reset (R142). -/
theorem State.running_of_step {s t : State} (h : step s = .next t) (hreset : HostAction.reset ∉ s.inbox) :
    ¬ s.halted := by
  intro hr
  rw [step_of_done (State.nextRequest_halted hr), State.leaveHalt, afterReset_eq_none.mpr hreset] at h
  cases h

/-- At the running block s the host writes the word of command i to CMD of port n, which s has, and the command leads to
t; `rest` is what the host does after it (R29). -/
structure State.Performs (s : State) (n : Nat) (i : Instr) (draw : EngineDraw) (rest : List HostAction) (t : State) :
    Prop where
  running : ¬ s.halted
  hasPort : n < s.ports.length
  ends : exec i ({ s with inbox := rest }.accept n (encode i) draw) = .next t

namespace State.Performs

variable {s t a b ab ba : State} {n m : Nat} {i j : Instr} {di dj : EngineDraw} {rest ra rb rab rba : List HostAction}

/-- A step of a CMD write with no reset after it. -/
theorem of_step {acts : List HostAction} (hstep : step { s with inbox := acts } = .next t)
    (hacts : acts = .writeCMD n (encode i) di :: rest) (hreset : HostAction.reset ∉ acts) (hn : n < s.ports.length) :
    s.Performs n i di rest t := by
  have hr : ¬ s.halted := State.running_of_step (s := { s with inbox := acts }) hstep hreset
  have hreq := State.nextRequest_writeCMD (s := { s with inbox := acts }) hr hacts hn
  rw [step_of_command hreq (decode_encode i)] at hstep
  exact ⟨hr, hn, hstep⟩

theorem effect (h : s.Performs n i di rest t) :
    Effect i ({ s with inbox := rest }.accept n (encode i) di) { s.ports[n]'h.hasPort with cmd := encode i } t :=
  exec_effect (State.accept_ready h.running h.hasPort ..) h.ends

/-- The ports that did not take the command are as they were (R42). -/
theorem otherPorts (h : s.Performs n i di rest t) :
    t.ports.length = s.ports.length ∧ ∀ l, l ≠ n → t.ports[l]? = s.ports[l]? := by
  obtain ⟨hlength, hother⟩ := h.effect.otherPorts
  refine ⟨by simpa [State.accept] using hlength, fun l hl => (hother l hl).trans ?_⟩
  simp [State.accept, Ne.symm hl]

/-- The parameters stay, the port of the command is the issuing one, and the rest of the actions are still to come. -/
theorem inputs (h : s.Performs n i di rest t) : t.params = s.params ∧ t.cur = n ∧ t.inbox = rest := by
  obtain ⟨hparams, hcur, -, hinbox⟩ := h.effect.inputs
  exact ⟨hparams, hcur, hinbox⟩

/-- The key state of a direction that is not the command's is as it was. -/
theorem otherKey (h : s.Performs n i di rest t) {d : Direction} (hd : wrapperDirection i ≠ some d) :
    t.key d = s.key d := by
  rw [← State.accept_key s n (encode i) di rest d]
  have hport := (State.accept_ready h.running h.hasPort (encode i) di rest).2
  exact (h.effect.key hport d).resolve_right fun ⟨hkey, _⟩ => hd (wrapperDirection_of_writesKey hkey.writesKey)

/-- A command that leaves the block running leaves FAULT and FCMD as they were. -/
theorem fault (h : s.Performs n i di rest t) (hr : ¬ t.halted) : t.fault = s.fault ∧ t.fcmd = s.fcmd :=
  h.effect.fault_of_running hr

/-- After a command of another port and another direction, a command leaves on its own port and in the key state of its
own direction what it leaves without it. -/
theorem sameOperands_of_other (ha : s.Performs n i di ra a) (hb : s.Performs m j dj rb b)
    (hab : a.Performs m j dj rab ab) (hnm : n ≠ m)
    (hdir : ∀ d, wrapperDirection i = some d → wrapperDirection j ≠ some d) : b.SameOperands j ab := by
  refine exec_sameOperands ?_ hb.ends hab.ends
  have hport : s.ports[m]? = some (s.ports[m]'hb.hasPort) := List.getElem?_eq_getElem hb.hasPort
  have hport' : a.ports[m]? = some (s.ports[m]'hb.hasPort) := (ha.otherPorts.2 m hnm.symm).trans hport
  exact {
    halted := iff_of_false hab.running hb.running
    params := ha.inputs.1
    draw := rfl
    port := (State.accept_port? (s := { a with inbox := rab }) hport' ..).trans
      (State.accept_port? (s := { s with inbox := rb }) hport ..).symm
    key := fun d hd => by
      rw [State.accept_key, State.accept_key]
      exact ha.otherKey fun hi => hdir d hi hd }

/-- A command that ends the same at s and at a leaves the same on its port m. -/
theorem port_eq (hb : s.Performs m j dj rb b) (hab : a.Performs m j dj rab ab) (h : b.SameOperands j ab) :
    ab.ports[m]? = b.ports[m]? := by
  have hport := h.port
  rwa [State.port?, State.port?, hab.inputs.2.1, hb.inputs.2.1] at hport

/-- Two commands of different ports and directions, neither of which faults as the first, end in the same block in either
order: each port and each key state is that of the one command that may write it. -/
theorem commute (ha : s.Performs n i di ra a) (hra : ¬ a.halted) (hb : s.Performs m j dj rb b) (hrb : ¬ b.halted)
    (hab : a.Performs m j dj rab ab) (hba : b.Performs n i di rba ba) (hnm : n ≠ m)
    (hdir : ∀ d, wrapperDirection i = some d → wrapperDirection j ≠ some d) : ab.SameBlock ba := by
  have hj : b.SameOperands j ab := ha.sameOperands_of_other hb hab hnm hdir
  have hi : a.SameOperands i ba := hb.sameOperands_of_other ha hba hnm.symm fun d hdj hdi => hdir d hdi hdj
  have hports : ab.ports = ba.ports := by
    refine List.ext_getElem? fun l => ?_
    by_cases hl : l = m
    · subst hl
      rw [port_eq hb hab hj, hba.otherPorts.2 l hnm.symm]
    · rw [hab.otherPorts.2 l hl]
      by_cases hl' : l = n
      · subst hl'
        rw [port_eq ha hba hi]
      · rw [hba.otherPorts.2 l hl', ha.otherPorts.2 l hl', hb.otherPorts.2 l hl]
  have hkey (d : Direction) : ab.key d = ba.key d := by
    by_cases hdj : wrapperDirection j = some d
    · rw [hj.key d hdj, hba.otherKey fun hdi => hdir d hdi hdj]
    · rw [hab.otherKey hdj]
      by_cases hdi : wrapperDirection i = some d
      · rw [hi.key d hdi]
      · rw [hba.otherKey hdi, ha.otherKey hdi, hb.otherKey hdj]
  obtain ⟨hfaultA, hfcmdA⟩ := ha.fault hra
  obtain ⟨hfaultB, hfcmdB⟩ := hb.fault hrb
  obtain ⟨hfaultAB, hfcmdAB⟩ := hab.fault (hj.halted.not.mpr hrb)
  obtain ⟨hfaultBA, hfcmdBA⟩ := hba.fault (hi.halted.not.mpr hra)
  exact ⟨hports, hkey .out, hkey .inn, by rw [hfaultAB, hfaultA, hfaultBA, hfaultB],
    by rw [hfcmdAB, hfcmdA, hfcmdBA, hfcmdB]⟩

end State.Performs

/-- Settles O56: the four steps are commands of the two ports, and each command finds the same whether it comes first or
second. -/
theorem commandsOfDifferentPortsCommute : Obligations.CommandsOfDifferentPortsCommute := by
  unfold Obligations.CommandsOfDifferentPortsCommute
  intro s a b ab ba n m i j di dj hnm hn hm _ hdir hstepA hra hstepB hrb hstepAB hstepBA
  have ha : s.Performs n i di [.writeCMD m (encode j) dj] a := .of_step hstepA rfl (by simp) hn
  have hb : s.Performs m j dj [.writeCMD n (encode i) di] b := .of_step hstepB rfl (by simp) hm
  have hab : a.Performs m j dj [] ab :=
    .of_step hstepAB ha.inputs.2.2 (by simp [ha.inputs.2.2]) (by rw [ha.otherPorts.1]; exact hm)
  have hba : b.Performs n i di [] ba :=
    .of_step hstepBA hb.inputs.2.2 (by simp [hb.inputs.2.2]) (by rw [hb.otherPorts.1]; exact hn)
  refine ha.commute hra hb hrb hab hba hnm fun d hi hj => ?_
  rcases hdir with hnone | hne
  · rw [hnone] at hi; cases hi
  · exact hne (hi.trans hj.symm)

end Sys2Proof.Machine

/-! The command words and the writes they size (spec/30_encoding.md R65 to R70). `decode_eq_command_iff` is the table of
R65 as one equivalence. Each WRITE ends ok in exactly one way, said once for each type (`write…Body_eq_ok`); that OLEN
then holds the size VSIZE gives is read off it. -/

namespace Sys2Proof.Machine

/-! ## The table of R65 -/

theorem decode_eq_command_iff {w : CmdWord} {i : Instr} : decode w = .command i ↔ encode i = w :=
  ⟨encode_of_decode, fun h => h ▸ decode_encode i⟩

/-- Settles O3: `encode_of_decode` one way, `decode_encode` the other. -/
theorem decodeAndEncodeAgree : Obligations.DecodeAndEncodeAgree := by
  unfold Obligations.DecodeAndEncodeAgree
  exact fun _ _ => decode_eq_command_iff

/-- A list that has every command with its word, and nothing else, is the table of the decoder. -/
theorem decode_eq_command_iff_mem {table : List (CmdWord × Instr)} (hall : ∀ i, (encode i, i) ∈ table)
    (honly : ∀ r ∈ table, encode r.2 = r.1) (w : CmdWord) (i : Instr) :
    decode w = .command i ↔ (w, i) ∈ table := by
  rw [decode_eq_command_iff]
  constructor
  · rintro rfl; exact hall i
  · exact honly (w, i)

/-- Settles O2: the listed pairs are each command once, with its word. -/
theorem legalWordsAreTheTable : Obligations.LegalWordsAreTheTable := by
  unfold Obligations.LegalWordsAreTheTable
  exact decode_eq_command_iff_mem (fun i => by cases i <;> decide) (by decide)

/-- Settles O1: the eight words are their commands' words. -/
theorem sampleWordsDecode : Obligations.SampleWordsDecode := by
  unfold Obligations.SampleWordsDecode
  exact ⟨decode_encode .parseAst, decode_encode .writeFm, decode_encode .vsizeVt, decode_encode .vp9lid,
    decode_encode .setkeyIn, decode_encode .encrypt, decode_encode .decrypt, decode_encode .overhead⟩

/-- The words that are no command's are those the decoder rejects (R66). -/
theorem exists_decode_eq_rejected {w : CmdWord} (h : ∀ i, encode i ≠ w) : ∃ r, decode w = .rejected r := by
  cases hw : decode w with
  | command i => exact absurd (encode_of_decode hw) (h i)
  | rejected r => exact ⟨r, rfl⟩

/-- Settles O5: the word is rejected, and the fault finds a running block. -/
theorem illegalWordRaisesIllegalCommand : Obligations.IllegalWordRaisesIllegalCommand := by
  unfold Obligations.IllegalWordRaisesIllegalCommand
  intro s n w draw rest hi hn hr hw
  obtain ⟨r, hreject⟩ := exists_decode_eq_rejected hw
  have hrunning := (State.accept_ready hr hn w draw rest).1
  rw [step_of_rejected (State.nextRequest_writeCMD hr hi hn) hreject, State.raiseFault_of_running hrunning]
  rfl

/-! ## When a WRITE ends ok (R72) -/

@[simp] theorem Port.readV_eq_ok {p : Port} {j : Fin 8} {x : Word} : p.readV j = .ok x ↔ p.v.get j = some x :=
  held_eq_ok

theorem Port.readSLEN_eq_ok {p : Port} {n : Nat} : p.readSLEN = .ok n ↔ ∃ x, p.slen = some x ∧ x.toNat = n := by
  simp [Port.readSLEN, bind_eq_ok]

/-- The check of OLEN passes when OLEN holds the size itself. -/
theorem Port.requireOLEN_eq_ok {p : Port} {size : Nat} (hsize : size < 2 ^ 32) {u : Unit} :
    p.requireOLEN size = .ok u ↔ p.olen = some (zext32 size) := by
  have hword (x : Word) : x.toNat = size ↔ x = zext32 size := by
    rw [← BitVec.toNat_inj, zext32, BitVec.toNat_ofNat, Nat.mod_eq_of_lt hsize]
  simp [Port.requireOLEN, bind_eq_ok, hword]

/-- A write over a whole buffer of zeros. -/
theorem memWrite_zeros (n x : Nat) : memWrite (zeros n) 0 n x = .ok (beBytes n x) := by
  rw [memWrite_of_le (by simp [zeros])]
  simp [zeros]

section
variable {P : Params} {p q : Port}

theorem writeAstBody_eq_ok : writeAstBody P p = .ok q ↔
    ∃ t, p.v.get 0 = some t ∧ t.toNat ≤ 0x00FFFFFF ∧ p.olen = some 3#32 ∧ p.setOB (beBytes 3 t.toNat) = q := by
  simp [writeAstBody, bind_eq_ok, Port.requireOLEN_eq_ok, memWrite_zeros, zext32]

theorem writeAlBody_eq_ok : writeAlBody P p = .ok q ↔
    ∃ va, p.v.get 0 = some va ∧ ∃ lv, p.v.get 1 = some lv ∧ va.toNat ≤ 1 ∧ lv.toNat ≤ 127 ∧ p.olen = some 1#32 ∧
      p.setOB [va.setWidth 8 <<< 7 ||| lv.setWidth 8] = q := by
  simp [writeAlBody, bind_eq_ok, Port.requireOLEN_eq_ok, zext32]

theorem writeToffBody_eq_ok : writeToffBody P p = .ok q ↔
    ∃ o, p.v.get 0 = some o ∧ (-8388608 ≤ o.toInt ∧ o.toInt ≤ 8388607) ∧ p.olen = some 3#32 ∧
      p.setOB (beBytes 3 (o.toInt % 2 ^ 24).toNat) = q := by
  simp [writeToffBody, bind_eq_ok, Port.requireOLEN_eq_ok, memWrite_zeros, zext32]

theorem writeTsnBody_eq_ok : writeTsnBody P p = .ok q ↔
    ∃ n, p.v.get 0 = some n ∧ n.toNat ≤ 0xFFFF ∧ p.olen = some 2#32 ∧ p.setOB (beBytes 2 n.toNat) = q := by
  simp [writeTsnBody, bind_eq_ok, Port.requireOLEN_eq_ok, memWrite_zeros, zext32]

theorem writeCvoBody_eq_ok : writeCvoBody P p = .ok q ↔
    ∃ r, p.v.get 0 = some r ∧ r.toNat ≤ 3 ∧ p.olen = some 1#32 ∧ p.setOB [P.cvoOf (r.setWidth 2)] = q := by
  simp [writeCvoBody, bind_eq_ok, Port.requireOLEN_eq_ok, zext32]

theorem writeCvorawBody_eq_ok : writeCvorawBody P p = .ok q ↔
    ∃ b, p.v.get 0 = some b ∧ b.toNat ≤ 0xFF ∧ p.olen = some 1#32 ∧ p.setOB [b.setWidth 8] = q := by
  simp [writeCvorawBody, bind_eq_ok, Port.requireOLEN_eq_ok, zext32]

theorem writePdlBody_eq_ok : writePdlBody P p = .ok q ↔
    ∃ mn, p.v.get 0 = some mn ∧ ∃ mx, p.v.get 1 = some mx ∧
      (0 ≤ mn.toInt ∧ mn.toInt ≤ mx.toInt ∧ mx.toInt ≤ P.pdlMaxMs) ∧ p.olen = some 3#32 ∧
      p.setOB (beBytes 3 ((mn.toNat / P.pdlG) <<< 12 ||| mx.toNat / P.pdlG)) = q := by
  simp [writePdlBody, bind_eq_ok, Port.requireOLEN_eq_ok, memWrite_zeros, zext32]

theorem writeVctBody_eq_ok : writeVctBody P p = .ok q ↔
    ∃ c, p.v.get 0 = some c ∧ c.toNat < P.vctCount ∧ p.olen = some 1#32 ∧ p.setOB [c.setWidth 8] = q := by
  simp [writeVctBody, bind_eq_ok, Port.requireOLEN_eq_ok, zext32]

/-- The six writes of WRITE.VT fill its buffer from the start (R107). -/
theorem memWrite_six_halves {α : Type} (d0 d1 d2 d3 d4 d5 : Nat) (f : List Byte → Except Stop α) :
    (do
      let ob ← memWrite (zeros 12) 0 2 d0
      let ob ← memWrite ob 2 2 d1
      let ob ← memWrite ob 4 2 d2
      let ob ← memWrite ob 6 2 d3
      let ob ← memWrite ob 8 2 d4
      let ob ← memWrite ob 10 2 d5
      f ob) =
    f (beBytes 2 d0 ++ beBytes 2 d1 ++ beBytes 2 d2 ++ beBytes 2 d3 ++ beBytes 2 d4 ++ beBytes 2 d5) := by
  simp [memWrite, zeros, beBytes, List.replicate]

theorem writeVtBody_eq_ok : writeVtBody P p = .ok q ↔
    ∃ d0, p.v.get 0 = some d0 ∧ ∃ d1, p.v.get 1 = some d1 ∧ ∃ d2, p.v.get 2 = some d2 ∧
    ∃ d3, p.v.get 3 = some d3 ∧ ∃ d4, p.v.get 4 = some d4 ∧ ∃ d5, p.v.get 5 = some d5 ∧
      (d0.toNat ≤ 0xFFFF ∧ d1.toNat ≤ 0xFFFF ∧ d2.toNat ≤ 0xFFFF ∧ d3.toNat ≤ 0xFFFF ∧ d4.toNat ≤ 0xFFFF ∧
        d5.toNat ≤ 0xFFFF) ∧ p.olen = some 12#32 ∧
      p.setOB (beBytes 2 d0.toNat ++ beBytes 2 d1.toNat ++ beBytes 2 d2.toNat ++ beBytes 2 d3.toNat ++
        beBytes 2 d4.toNat ++ beBytes 2 d5.toNat) = q := by
  simp only [writeVtBody, memWrite_six_halves]
  simp [bind_eq_ok, Port.requireOLEN_eq_ok, zext32]

theorem writeStreamIdBody_eq_ok : writeStreamIdBody P p = .ok q ↔
    ∃ n, p.slen = some n ∧ (n.toNat ≠ 0 ∧ n.toNat ≤ P.rsidMax.val) ∧
    ∃ bytes, p.readSB n.toNat = .ok bytes ∧ ∃ b0, bytes[0]? = some b0 ∧ b0 ≠ 0x00#8 ∧
      p.olen = some (zext32 n.toNat) ∧ p.setOB bytes = q := by
  have hsize (n : BitVec 5) {u : Unit} : p.requireOLEN n.toNat = .ok u ↔ p.olen = some (zext32 n.toNat) :=
    Port.requireOLEN_eq_ok (by omega)
  simp [writeStreamIdBody, bind_eq_ok, Port.readSLEN_eq_ok, byteAt_eq_ok, hsize]

/-- The bytes of a FrameMarking value (R120, R122). -/
def frameMarkingImage (P : Params) (start fin ind disc bs tid lid tl0 : Word) : List Byte :=
  if scalable P bs tid lid tl0 then
    [flagBits start fin ind disc ||| bs.setWidth 8 <<< 3 ||| (tid.extractLsb' 0 3).setWidth 8, lid.setWidth 8,
      tl0.setWidth 8]
  else [flagBits start fin ind disc]

theorem writeFmBody_eq_ok : writeFmBody P p = .ok q ↔
    ∃ start, p.v.get 0 = some start ∧ ∃ fin, p.v.get 1 = some fin ∧ ∃ ind, p.v.get 2 = some ind ∧
    ∃ disc, p.v.get 3 = some disc ∧ ∃ bs, p.v.get 4 = some bs ∧ ∃ tid, p.v.get 5 = some tid ∧
    ∃ lid, p.v.get 6 = some lid ∧ ∃ tl0, p.v.get 7 = some tl0 ∧
      (start.toNat ≤ 1 ∧ fin.toNat ≤ 1 ∧ ind.toNat ≤ 1 ∧ disc.toNat ≤ 1 ∧ bs.toNat ≤ 1) ∧
      (tid.toNat ≤ 7 ∨ tid = P.noTemporalIdx.setWidth 32) ∧ (lid.toNat ≤ 0xFF ∧ tl0.toNat ≤ 0xFF) ∧
      p.olen = some (zext32 (frameMarkingSize P bs tid lid tl0)) ∧
      p.setOB (frameMarkingImage P start fin ind disc bs tid lid tl0) = q := by
  have hsize (bs tid lid tl0 : Word) {u : Unit} : p.requireOLEN (frameMarkingSize P bs tid lid tl0) = .ok u ↔
      p.olen = some (zext32 (frameMarkingSize P bs tid lid tl0)) :=
    Port.requireOLEN_eq_ok (by unfold frameMarkingSize; split <;> decide)
  have himage (start fin ind disc bs tid lid tl0 : Word) :
      (if scalable P bs tid lid tl0 then
        pure (p.setOB [flagBits start fin ind disc ||| bs.setWidth 8 <<< 3 ||| (tid.extractLsb' 0 3).setWidth 8,
          lid.setWidth 8, tl0.setWidth 8])
      else (pure (p.setOB [flagBits start fin ind disc]) : Except Stop Port)) =
      .ok (p.setOB (frameMarkingImage P start fin ind disc bs tid lid tl0)) := by
    unfold frameMarkingImage; split <;> rfl
  simp only [writeFmBody, himage]
  simp [bind_eq_ok, hsize]

/-! ## The size VSIZE gives (R113, R123) -/

theorem vsizeStreamIdBody_of_slen {n : BitVec 5} (hn : p.slen = some n) :
    vsizeStreamIdBody P p = .ok (p.setRES (zext32 n.toNat)) := by
  simp [vsizeStreamIdBody, Port.readSLEN_eq_ok.mpr ⟨n, hn, rfl⟩]

theorem vsizeFmBody_of_values {bs tid lid tl0 : Word} (hbs : p.v.get 4 = some bs) (htid : p.v.get 5 = some tid)
    (hlid : p.v.get 6 = some lid) (htl0 : p.v.get 7 = some tl0) :
    vsizeFmBody P p = .ok (p.setRES (zext32 (frameMarkingSize P bs tid lid tl0))) := by
  simp [vsizeFmBody, Port.readV_eq_ok.mpr hbs, Port.readV_eq_ok.mpr htid, Port.readV_eq_ok.mpr hlid,
    Port.readV_eq_ok.mpr htl0]

end

/-! ## A WRITE ends ok only with OLEN = RES of VSIZE (R70, R161) -/

/-- The pseudocode of a WRITE and of the VSIZE of its type (R61). Whenever the WRITE answers, OLEN holds what VSIZE gives
as RES, and the WRITE answers the same bytes with any STATUS and RES. -/
structure SizedWrite (write size : Params → Port → Except Stop Port) : Prop where
  never_fails : ∀ P p, StopsIn (fun stop => ∀ c, stop ≠ .fail c) (write P p)
  answers : ∀ {P p olen q}, write P { p with olen := olen } = .ok q →
    ∃ n, olen = some n ∧ size P p = .ok (p.setRES n) ∧
      ∀ x y, write P { p with status := x, res := y, olen := some n } =
        .ok { p with status := x, res := y, olen := some n, ob := q.ob }

/-- A command on the issuing port whose pseudocode never fails, and which leaves the block running, ended ok. -/
theorem runPort_ok_of_running {i : Instr} {body : Params → Port → Except Stop Port} {s t : State} {p : Port}
    (hp : s.port? = some p) (hfail : StopsIn (fun stop => ∀ c, stop ≠ .fail c) (body s.params p))
    (h : runPort i body s = .next t) (ht : ¬ t.halted) :
    ∃ q, body s.params p = .ok q ∧ t = s.setPort (q.setStatus .ok) := by
  obtain ⟨-, p', hp', hcases⟩ := runPort_next h
  obtain rfl : p = p' := Option.some.inj (hp.symm.trans hp')
  rcases hcases with ⟨q, hb, rfl⟩ | ⟨c, hb, -⟩ | ⟨k, -, rfl⟩
  · exact ⟨q, hb, rfl⟩
  · rw [hb] at hfail; exact absurd rfl (hfail c)
  · exact absurd (s.raiseFault_halted k _) ht

namespace SizedWrite

theorem ast : SizedWrite writeAstBody (vsizeBody 3) where
  never_fails _ _ := writeAstBody_stops nofun nofun
  answers h := by
    obtain ⟨t, ht, hle, holen, rfl⟩ := writeAstBody_eq_ok.mp h
    exact ⟨_, holen, rfl, fun _ _ => writeAstBody_eq_ok.mpr ⟨t, ht, hle, rfl, rfl⟩⟩

theorem al : SizedWrite writeAlBody (vsizeBody 1) where
  never_fails _ _ := writeAlBody_stops nofun nofun
  answers h := by
    obtain ⟨va, hva, lv, hlv, hva1, hlv127, holen, rfl⟩ := writeAlBody_eq_ok.mp h
    exact ⟨_, holen, rfl, fun _ _ => writeAlBody_eq_ok.mpr ⟨va, hva, lv, hlv, hva1, hlv127, rfl, rfl⟩⟩

theorem toff : SizedWrite writeToffBody (vsizeBody 3) where
  never_fails _ _ := writeToffBody_stops nofun nofun
  answers h := by
    obtain ⟨o, ho, hrange, holen, rfl⟩ := writeToffBody_eq_ok.mp h
    exact ⟨_, holen, rfl, fun _ _ => writeToffBody_eq_ok.mpr ⟨o, ho, hrange, rfl, rfl⟩⟩

theorem tsn : SizedWrite writeTsnBody (vsizeBody 2) where
  never_fails _ _ := writeTsnBody_stops nofun nofun
  answers h := by
    obtain ⟨n, hn, hle, holen, rfl⟩ := writeTsnBody_eq_ok.mp h
    exact ⟨_, holen, rfl, fun _ _ => writeTsnBody_eq_ok.mpr ⟨n, hn, hle, rfl, rfl⟩⟩

theorem cvo : SizedWrite writeCvoBody (vsizeBody 1) where
  never_fails _ _ := writeCvoBody_stops nofun nofun
  answers h := by
    obtain ⟨r, hr, hle, holen, rfl⟩ := writeCvoBody_eq_ok.mp h
    exact ⟨_, holen, rfl, fun _ _ => writeCvoBody_eq_ok.mpr ⟨r, hr, hle, rfl, rfl⟩⟩

theorem cvoraw : SizedWrite writeCvorawBody (vsizeBody 1) where
  never_fails _ _ := writeCvorawBody_stops nofun nofun
  answers h := by
    obtain ⟨b, hb, hle, holen, rfl⟩ := writeCvorawBody_eq_ok.mp h
    exact ⟨_, holen, rfl, fun _ _ => writeCvorawBody_eq_ok.mpr ⟨b, hb, hle, rfl, rfl⟩⟩

theorem pdl : SizedWrite writePdlBody (vsizeBody 3) where
  never_fails _ _ := writePdlBody_stops nofun nofun
  answers h := by
    obtain ⟨mn, hmn, mx, hmx, hrange, holen, rfl⟩ := writePdlBody_eq_ok.mp h
    exact ⟨_, holen, rfl, fun _ _ => writePdlBody_eq_ok.mpr ⟨mn, hmn, mx, hmx, hrange, rfl, rfl⟩⟩

theorem vct : SizedWrite writeVctBody (vsizeBody 1) where
  never_fails _ _ := writeVctBody_stops nofun nofun
  answers h := by
    obtain ⟨c, hc, hlt, holen, rfl⟩ := writeVctBody_eq_ok.mp h
    exact ⟨_, holen, rfl, fun _ _ => writeVctBody_eq_ok.mpr ⟨c, hc, hlt, rfl, rfl⟩⟩

theorem vt : SizedWrite writeVtBody (vsizeBody 12) where
  never_fails _ _ := writeVtBody_stops nofun nofun
  answers h := by
    obtain ⟨d0, h0, d1, h1, d2, h2, d3, h3, d4, h4, d5, h5, hrange, holen, rfl⟩ := writeVtBody_eq_ok.mp h
    exact ⟨_, holen, rfl, fun _ _ => writeVtBody_eq_ok.mpr
      ⟨d0, h0, d1, h1, d2, h2, d3, h3, d4, h4, d5, h5, hrange, rfl, rfl⟩⟩

/-- VSIZE gives SLEN, which is the size that the WRITE checks OLEN against (R112, R113). -/
theorem streamId : SizedWrite writeStreamIdBody vsizeStreamIdBody where
  never_fails _ _ := writeStreamIdBody_stops nofun nofun
  answers h := by
    obtain ⟨n, hn, hle, bytes, hbytes, b0, hb0, hne, holen, rfl⟩ := writeStreamIdBody_eq_ok.mp h
    exact ⟨_, holen, vsizeStreamIdBody_of_slen hn, fun _ _ => writeStreamIdBody_eq_ok.mpr
      ⟨n, hn, hle, bytes, hbytes, b0, hb0, hne, rfl, rfl⟩⟩

/-- VSIZE and the WRITE read the same four registers and take the size by R119 (R122, R123). -/
theorem fm : SizedWrite writeFmBody vsizeFmBody where
  never_fails _ _ := writeFmBody_stops nofun nofun
  answers h := by
    obtain ⟨start, h0, fin, h1, ind, h2, disc, h3, bs, h4, tid, h5, lid, h6, tl0, h7, hflags, htid, hbytes, holen, rfl⟩ :=
      writeFmBody_eq_ok.mp h
    exact ⟨_, holen, vsizeFmBody_of_values h4 h5 h6 h7, fun _ _ => writeFmBody_eq_ok.mpr
      ⟨start, h0, fin, h1, ind, h2, disc, h3, bs, h4, tid, h5, lid, h6, tl0, h7, hflags, htid, hbytes, rfl, rfl⟩⟩

/-- VSIZE, OLEN <- RES, WRITE, which R70 calls WRITESZ, from a WRITE that ended ok with some OLEN. -/
theorem endsOk {w z : Instr} {write size : Params → Port → Except Stop Port} {s t : State} {p q : Port}
    {olen : Option Word} (h : SizedWrite write size) (hw : ∀ s, exec w s = runPort w write s)
    (hz : ∀ s, exec z s = runPort z size s) (hs : s.Ready p)
    (hexec : exec w (s.setPort { p with olen := olen }) = .next t) (ht : ¬ t.halted) (hq : t.port? = some q) :
    ∃ n, EndsOk z s { p with res := some n } ∧
      EndsOk w (s.setPort { p with status := some 0#8, res := some n, olen := some n })
        { p with res := some n, olen := some n, ob := q.ob } := by
  obtain ⟨hr, hp⟩ := hs
  have hport (p' : Port) : (s.setPort p').port? = some p' := State.setPort_port? p' hp
  rw [hw] at hexec
  obtain ⟨q', hbody, rfl⟩ := runPort_ok_of_running (hport _) (h.never_fails ..) hexec ht
  obtain rfl : q'.setStatus .ok = q := Option.some.inj ((State.setPort_port? _ (hport _)).symm.trans hq)
  obtain ⟨n, -, hsize, hsized⟩ := h.answers hbody
  refine ⟨n, (hz s).trans (runPort_of_ok hr hp hsize), (hw _).trans ?_⟩
  exact runPort_of_ok (p' := { p with status := some 0#8, res := some n, olen := some n, ob := q'.ob }) hr (hport _)
    (hsized _ _)

end SizedWrite

/-- Settles O53, by the type: the OLEN with which the WRITE ended ok is the RES that VSIZE gives. -/
theorem writeSizedByVsizeEndsOk : Obligations.WriteSizedByVsizeEndsOk := by
  unfold Obligations.WriteSizedByVsizeEndsOk
  rintro ⟨w, z⟩ hpair s t p q olen hs hwrite ht hq
  simp only [writeSizePairs, List.mem_cons, List.not_mem_nil, or_false, Prod.mk.injEq] at hpair
  rcases hpair with ⟨rfl, rfl⟩ | ⟨rfl, rfl⟩ | ⟨rfl, rfl⟩ | ⟨rfl, rfl⟩ | ⟨rfl, rfl⟩ | ⟨rfl, rfl⟩ | ⟨rfl, rfl⟩ | ⟨rfl, rfl⟩ |
    ⟨rfl, rfl⟩ | ⟨rfl, rfl⟩ | ⟨rfl, rfl⟩ | ⟨rfl, rfl⟩
  · exact SizedWrite.ast.endsOk exec_writeAst exec_vsizeAst hs hwrite ht hq
  · exact SizedWrite.al.endsOk exec_writeAl exec_vsizeAl hs hwrite ht hq
  · exact SizedWrite.toff.endsOk exec_writeToff exec_vsizeToff hs hwrite ht hq
  · exact SizedWrite.tsn.endsOk exec_writeTsn exec_vsizeTsn hs hwrite ht hq
  · exact SizedWrite.cvo.endsOk exec_writeCvo exec_vsizeCvo hs hwrite ht hq
  · exact SizedWrite.cvoraw.endsOk exec_writeCvoraw exec_vsizeCvoraw hs hwrite ht hq
  · exact SizedWrite.pdl.endsOk exec_writePdl exec_vsizePdl hs hwrite ht hq
  · exact SizedWrite.vct.endsOk exec_writeVct exec_vsizeVct hs hwrite ht hq
  · exact SizedWrite.vt.endsOk exec_writeVt exec_vsizeVt hs hwrite ht hq
  · exact SizedWrite.streamId.endsOk exec_writeRsid exec_vsizeRsid hs hwrite ht hq
  · exact SizedWrite.streamId.endsOk exec_writeRrsid exec_vsizeRrsid hs hwrite ht hq
  · exact SizedWrite.fm.endsOk exec_writeFm exec_vsizeFm hs hwrite ht hq

end Sys2Proof.Machine

/-! The nine fixed-size codec types (spec/40_codec_fixed.md). Each pseudocode is followed once, on the bytes of IB or on
the values of the registers it reads, with bytes as big-endian numbers (`parse…Body_of_…`, `write…Body_of_values`); the
endings of R19 and R72 and the laws of R74 and R75 are read off that. -/

namespace Sys2Proof.Machine

/-! ## From the pseudocode to the end of a command (R19) -/

/-- The pseudocode of a WRITE from its last check on: OLEN is the size, and OB takes the wire image (R72). -/
def Port.emit (p : Port) (size : Nat) (image : List Byte) : Except Stop Port := do
  p.requireOLEN size
  return p.setOB image

section
variable {i : Instr} {body : Params → Port → Except Stop Port} {s : State} {p q : Port}

theorem endsOk_of_body (hexec : exec i s = runPort i body s) (hs : s.Ready p) (hb : body s.params p = .ok q) :
    EndsOk i s q :=
  hexec.trans (runPort_of_ok hs.1 hs.2 hb)

theorem endsFail_of_body {c : StatusCode} (hexec : exec i s = runPort i body s) (hs : s.Ready p)
    (hb : body s.params p = .error (.fail c)) : EndsFail i s p c.code :=
  hexec.trans (runPort_of_fail hs.1 hs.2 hb)

theorem endsFault_of_body {k : FaultKind} (hexec : exec i s = runPort i body s) (hs : s.Ready p)
    (hb : body s.params p = .error (.raise k)) : EndsFault i s k.register :=
  hexec.trans (runPort_of_raise hs.1 hs.2 hb)

theorem endsBySize_of_body {size : Nat} {image : List Byte} (hexec : exec i s = runPort i body s) (hs : s.Ready p)
    (hb : body s.params p = p.emit size image) : EndsBySize i s p size image := by
  refine ⟨fun hnone => ?_, fun n hn => ⟨fun hne => ?_, fun heq => ?_⟩⟩
  · exact endsFault_of_body (k := .unwrittenRead) hexec hs (by simp [hb, Port.emit, Port.requireOLEN, hnone])
  · exact endsFault_of_body (k := .contractViolation) hexec hs
      (by simp [hb, Port.emit, Port.requireOLEN, hn, contract, require_of_not hne])
  · exact endsOk_of_body (q := p.setOB image) hexec hs
      (by simp [hb, Port.emit, Port.requireOLEN, hn, contract, require_of heq])

end

/-! ## The length check of a PARSE (R71) -/

section
variable {α : Type} {p : Port} {n : Nat} {f : Unit → Except Stop α}

theorem requireIB_bind_of_length (h : p.ib.length = n) : (p.requireIB (· == n) >>= f) = f () := by
  rw [Port.requireIB, require_of (by simpa using h), ok_bind]

theorem requireIB_bind_of_length_ne (h : p.ib.length ≠ n) :
    (p.requireIB (· == n) >>= f) = .error (.fail .malformedLength) := by
  rw [Port.requireIB, require_of_not (by simpa using h), error_bind]

end

/-- A PARSE of a fixed size ends MalformedLength on any other length, whatever follows its check. -/
theorem endsFail_of_length_ne {i : Instr} {n : Nat} {rest : Unit → Except Stop Port} {s : State} {p : Port}
    {body : Params → Port → Except Stop Port} (hexec : exec i s = runPort i body s) (hs : s.Ready p)
    (hbody : body s.params p = (p.requireIB (· == n) >>= rest)) (hne : p.ib.length ≠ n) : EndsFail i s p 1#8 :=
  endsFail_of_body (c := .malformedLength) hexec hs (hbody.trans (requireIB_bind_of_length_ne hne))

/-! ## Big-endian numbers of two and three bytes (R17, R43) -/

theorem beNat_two (a b : Byte) : beNat [a, b] = a.toNat * 256 + b.toNat := by
  simp [beNat]

theorem beNat_three (a b c : Byte) : beNat [a, b, c] = a.toNat * 65536 + b.toNat * 256 + c.toNat := by
  simp only [beNat, List.length_cons, List.length_nil]
  omega

theorem beBytes_two_toNat (x : Word) : beBytes 2 x.toNat = [x.extractLsb' 8 8, x.extractLsb' 0 8] := by
  simp [beBytes, ← BitVec.toNat_inj, Nat.shiftRight_eq_div_pow]

theorem beBytes_three_toNat (x : Word) :
    beBytes 3 x.toNat = [x.extractLsb' 16 8, x.extractLsb' 8 8, x.extractLsb' 0 8] := by
  simp [beBytes, ← BitVec.toNat_inj, Nat.shiftRight_eq_div_pow]

/-- A buffer that holds its whole number is read whole. -/
theorem memRead_whole {B : List Byte} {n : Nat} (h : B.length = n) : memRead B 0 n = .ok (beNat B) := by
  rw [memRead_of_le (by omega), List.drop_zero, List.take_of_length_le (by omega)]

theorem byteAt_singleton (b : Byte) : byteAt [b] 0 = .ok b := rfl

/-! ## Fields of an operand: flag and level, two's complement, the two counts of a playout delay (R80, R83, R96) -/

/-- The byte that WRITE.AL packs, as a number (R81). -/
theorem flag_or_level_eq {va lv : Word} (hva : va.toNat ≤ 1) (hlv : lv.toNat ≤ 127) :
    va.setWidth 8 <<< 7 ||| lv.setWidth 8 = BitVec.ofNat 8 (va.toNat * 128 + lv.toNat) := by
  apply BitVec.eq_of_toNat_eq
  rw [BitVec.toNat_or, BitVec.toNat_shiftLeft, BitVec.toNat_setWidth, BitVec.toNat_setWidth, BitVec.toNat_ofNat,
    Nat.mod_eq_of_lt (by omega : va.toNat < 2 ^ 8), Nat.mod_eq_of_lt (by omega : lv.toNat < 2 ^ 8),
    Nat.mod_eq_of_lt (by rw [Nat.shiftLeft_eq]; omega : va.toNat <<< 7 < 2 ^ 8),
    ← Nat.shiftLeft_add_eq_or_of_lt (by omega : lv.toNat < 2 ^ 7), Nat.shiftLeft_eq, Nat.mod_eq_of_lt (by omega)]

theorem field_flag (b : Byte) : field b 7 1 = zext32 (b.toNat / 128) := by
  have := b.isLt
  apply BitVec.eq_of_toNat_eq
  simp [field, zext32, Nat.shiftRight_eq_div_pow]
  omega

theorem field_level (b : Byte) : field b 0 7 = zext32 (b.toNat % 128) := by
  apply BitVec.eq_of_toNat_eq
  simp [field, zext32]

theorem sext24_toInt (n : Nat) : (sext24 n).toInt = Int.bmod n (2 ^ 24) := by
  rw [sext24, BitVec.toInt_signExtend_of_le (by omega), BitVec.toInt_ofNat']

/-- Two's complement subtracts 2^24 from a number whose top byte has its top bit set (R83). -/
theorem sext24_three (a b c : Byte) : sext24 (beNat [a, b, c]) = BitVec.ofInt 32
    ((a.toNat * 65536 + b.toNat * 256 + c.toNat : Nat) - (if 128 ≤ a.toNat then 16777216 else 0) : Int) := by
  apply BitVec.eq_of_toInt_eq
  rw [sext24_toInt, beNat_three, BitVec.toInt_ofInt, Int.bmod_def, Int.bmod_def]
  have ha := a.isLt
  have hb := b.isLt
  have hc := c.isLt
  split <;> split <;> split <;> omega

/-- The low 24 bits of a word in the signed 24-bit range stand for it. -/
theorem sext24_of_range {o : Word} (hlow : -8388608 ≤ o.toInt) (hhigh : o.toInt ≤ 8388607) :
    sext24 (o.toInt % 2 ^ 24).toNat = o := by
  apply BitVec.eq_of_toInt_eq
  rw [sext24_toInt, Int.bmod_def]
  omega

theorem toInt_emod_toNat (o : Word) : (o.toInt % 2 ^ 24).toNat = o.toNat % 256 ^ 3 := by
  rw [BitVec.toInt_eq_toNat_cond]
  split <;> omega

/-- Only the low 24 bits of a number reach its three bytes. -/
theorem beBytes_three_mod (x : Nat) : beBytes 3 (x % 256 ^ 3) = beBytes 3 x := by
  simp only [beBytes, List.cons.injEq, ← BitVec.toNat_inj, BitVec.toNat_ofNat, and_true]
  omega

theorem pdlRaw_eq (W lo : Nat) : pdlRaw W lo = W % 2 ^ 24 / 2 ^ lo % 2 ^ 12 := by
  simp [pdlRaw, Nat.shiftRight_eq_div_pow]

/-- The word of R96 as a sum: its low count has 12 bits. -/
theorem pdlWord_eq {minRaw maxRaw : Nat} (h : maxRaw < 4096) : minRaw <<< 12 ||| maxRaw = minRaw * 4096 + maxRaw := by
  rw [← Nat.shiftLeft_add_eq_or_of_lt h, Nat.shiftLeft_eq]

theorem beBytes_pdlWord {minRaw maxRaw : Nat} (h : maxRaw < 4096) :
    beBytes 3 (minRaw <<< 12 ||| maxRaw) =
      [BitVec.ofNat 8 (minRaw / 16), BitVec.ofNat 8 (minRaw % 16 * 16 + maxRaw / 256),
        BitVec.ofNat 8 (maxRaw % 256)] := by
  rw [pdlWord_eq h]
  simp only [beBytes, List.cons.injEq, ← BitVec.toNat_inj, BitVec.toNat_ofNat, and_true]
  omega

theorem toNat_of_toInt_nonneg {x : Word} (h : 0 ≤ x.toInt) : (x.toNat : Int) = x.toInt := by
  rw [BitVec.toInt_eq_toNat_cond] at h ⊢
  split at h <;> omega

/-- Under R97's law a limit up to the ceiling has at most 4095 counts. -/
theorem pdlCount_lt {P : Params} (hfits : P.CeilingFits) {x : Word} (hlow : 0 ≤ x.toInt)
    (hhigh : x.toInt ≤ P.pdlMaxMs) : x.toNat / P.pdlG < 4096 := by
  have hle : x.toNat ≤ P.pdlMaxMs := by have := toNat_of_toInt_nonneg hlow; omega
  have := Nat.div_le_div_right (c := P.pdlG) hle
  omega

/-- The quantised value is the value itself exactly for a multiple of the granularity (R97). -/
theorem zext32_quantised {x : Word} {g : Nat} : zext32 (x.toNat / g * g) = x ↔ g ∣ x.toNat := by
  have hle := Nat.div_mul_le_self x.toNat g
  rw [← BitVec.toNat_inj, zext32, BitVec.toNat_ofNat, Nat.mod_eq_of_lt (by omega)]
  exact ⟨fun h => h ▸ Nat.dvd_mul_left .., Nat.div_mul_cancel⟩

/-! ## PARSE on the bytes of IB -/

section
variable {P : Params} {p : Port}

theorem parseAstBody_of_length (h : p.ib.length = 3) : parseAstBody P p = .ok (p.setV 0 (zext32 (beNat p.ib))) := by
  rw [parseAstBody, requireIB_bind_of_length h, memRead_whole h]; rfl

theorem parseAlBody_of_byte {b : Byte} (h : p.ib = [b]) :
    parseAlBody P p = .ok ((p.setV 0 (field b 7 1)).setV 1 (field b 0 7)) := by
  rw [parseAlBody, requireIB_bind_of_length (by simp [h]), h, byteAt_singleton]; rfl

theorem parseToffBody_of_length (h : p.ib.length = 3) : parseToffBody P p = .ok (p.setV 0 (sext24 (beNat p.ib))) := by
  rw [parseToffBody, requireIB_bind_of_length h, memRead_whole h]; rfl

theorem parseTsnBody_of_length (h : p.ib.length = 2) : parseTsnBody P p = .ok (p.setV 0 (zext32 (beNat p.ib))) := by
  rw [parseTsnBody, requireIB_bind_of_length h, memRead_whole h]; rfl

theorem parseCvoBody_of_byte {b : Byte} (h : p.ib = [b]) :
    parseCvoBody P p = .ok (p.setV 0 ((P.rotationOf b).setWidth 32)) := by
  rw [parseCvoBody, requireIB_bind_of_length (by simp [h]), h, byteAt_singleton]; rfl

theorem parseCvorawBody_of_byte {b : Byte} (h : p.ib = [b]) : parseCvorawBody P p = .ok (p.setV 0 (b.setWidth 32)) := by
  rw [parseCvorawBody, requireIB_bind_of_length (by simp [h]), h, byteAt_singleton]; rfl

/-- The bytes of IB are the word of R96 with the two counts in its halves. -/
theorem parsePdlBody_of_counts {minRaw maxRaw : Nat} (hlength : p.ib.length = 3)
    (hword : beNat p.ib = minRaw * 4096 + maxRaw) (hmin : minRaw < 4096) (hmax : maxRaw < 4096) :
    parsePdlBody P p =
      (require (minRaw ≤ maxRaw) (.fail .invalidFieldValue) >>= fun _ =>
        .ok ((p.setV 0 (zext32 (minRaw * P.pdlG))).setV 1 (zext32 (maxRaw * P.pdlG)))) := by
  have h12 : pdlRaw (beNat p.ib) 12 = minRaw := by rw [pdlRaw_eq, hword]; omega
  have h0 : pdlRaw (beNat p.ib) 0 = maxRaw := by rw [pdlRaw_eq, hword]; omega
  rw [parsePdlBody, requireIB_bind_of_length hlength, memRead_whole hlength, ok_bind, h12, h0]; rfl

theorem parseVctBody_of_byte {b : Byte} (h : p.ib = [b]) :
    parseVctBody P p =
      (require (b.toNat < P.vctCount) (.fail .invalidFieldValue) >>= fun _ => .ok (p.setV 0 (b.setWidth 32))) := by
  rw [parseVctBody, requireIB_bind_of_length (by simp [h]), h, byteAt_singleton]; rfl

theorem parseVtBody_of_bytes {a0 b0 a1 b1 a2 b2 a3 b3 a4 b4 a5 b5 : Byte}
    (h : p.ib = [a0, b0, a1, b1, a2, b2, a3, b3, a4, b4, a5, b5]) :
    parseVtBody P p =
      .ok ((((((p.setV 0 (zext32 (beNat [a0, b0]))).setV 1 (zext32 (beNat [a1, b1]))).setV 2
        (zext32 (beNat [a2, b2]))).setV 3 (zext32 (beNat [a3, b3]))).setV 4 (zext32 (beNat [a4, b4]))).setV 5
        (zext32 (beNat [a5, b5]))) := by
  rw [parseVtBody, requireIB_bind_of_length (by simp [h]), h]; rfl

end

/-! ## The statements about PARSE and VSIZE -/

/-- Settles O11: the three bytes are read as one big-endian number (R76). -/
theorem parseAstReadsBigEndian24 : Obligations.ParseAstReadsBigEndian24 := by
  unfold Obligations.ParseAstReadsBigEndian24
  refine fun s p hs => ⟨fun a b c hib => ?_, endsFail_of_length_ne (exec_parseAst s) hs rfl⟩
  rw [← beNat_three, ← hib]
  exact endsOk_of_body (exec_parseAst s) hs (parseAstBody_of_length (by simp [hib]))

/-- Settles O12: the two fields of the byte are its quotient and its remainder by 128 (R80). -/
theorem parseAlSplitsFlagAndLevel : Obligations.ParseAlSplitsFlagAndLevel := by
  unfold Obligations.ParseAlSplitsFlagAndLevel
  refine fun s p hs => ⟨fun b hib => ?_, endsFail_of_length_ne (exec_parseAl s) hs rfl⟩
  have hb := parseAlBody_of_byte (P := s.params) hib
  rw [field_flag, field_level] at hb
  exact endsOk_of_body (exec_parseAl s) hs hb

/-- Settles O13: the three bytes are read as one number, then as two's complement (R83). -/
theorem parseToffSignExtends : Obligations.ParseToffSignExtends := by
  unfold Obligations.ParseToffSignExtends
  refine fun s p hs => ⟨fun a b c hib => ?_, endsFail_of_length_ne (exec_parseToff s) hs rfl⟩
  rw [← sext24_three, ← hib]
  exact endsOk_of_body (exec_parseToff s) hs (parseToffBody_of_length (by simp [hib]))

/-- Settles O14: the two bytes are read as one big-endian number (R86). -/
theorem parseTsnReadsBigEndian16 : Obligations.ParseTsnReadsBigEndian16 := by
  unfold Obligations.ParseTsnReadsBigEndian16
  refine fun s p hs => ⟨fun a b hib => ?_, endsFail_of_length_ne (exec_parseTsn s) hs rfl⟩
  rw [← beNat_two, ← hib]
  exact endsOk_of_body (exec_parseTsn s) hs (parseTsnBody_of_length (by simp [hib]))

/-- Settles O15: the byte goes through CVO_TO_ROT, and the code is zero-extended (R90). -/
theorem parseCvoConvertsToRotation : Obligations.ParseCvoConvertsToRotation := by
  unfold Obligations.ParseCvoConvertsToRotation
  refine fun s p hs => ⟨fun b hib => ?_, endsFail_of_length_ne (exec_parseCvo s) hs rfl⟩
  rw [BitVec.ofNat_toNat]
  exact endsOk_of_body (exec_parseCvo s) hs (parseCvoBody_of_byte hib)

/-- Settles O16: the byte is zero-extended (R93). -/
theorem parseCvorawPassesTheByte : Obligations.ParseCvorawPassesTheByte := by
  unfold Obligations.ParseCvorawPassesTheByte
  refine fun s p hs => ⟨fun b hib => ?_, endsFail_of_length_ne (exec_parseCvoraw s) hs rfl⟩
  rw [BitVec.ofNat_toNat]
  exact endsOk_of_body (exec_parseCvoraw s) hs (parseCvorawBody_of_byte hib)

/-- Settles O17: the 24-bit word of the three bytes has the two counts in its halves (R96). -/
theorem parsePdlChecksAndExpands : Obligations.ParsePdlChecksAndExpands := by
  unfold Obligations.ParsePdlChecksAndExpands
  refine fun s p hs => ⟨fun a b c hib minRaw maxRaw hmin hmax => ?_, endsFail_of_length_ne (exec_parsePdl s) hs rfl⟩
  have ha := a.isLt
  have hb := b.isLt
  have hc := c.isLt
  have hword : beNat p.ib = minRaw * 4096 + maxRaw := by rw [hib, beNat_three]; omega
  have hbody := parsePdlBody_of_counts (P := s.params) (by simp [hib]) hword (by omega) (by omega)
  refine ⟨fun hlt => ?_, fun hle => ?_⟩
  · exact endsFail_of_body (c := .invalidFieldValue) (exec_parsePdl s) hs
      (hbody.trans (by rw [require_of_not (Nat.not_le.mpr hlt), error_bind]))
  · exact endsOk_of_body (exec_parsePdl s) hs (hbody.trans (by rw [require_of hle, ok_bind]; rfl))

/-- Settles O18: the byte, read after the length check, is checked against VCT_COUNT (R102). -/
theorem parseVctChecksTheCount : Obligations.ParseVctChecksTheCount := by
  unfold Obligations.ParseVctChecksTheCount
  refine fun s p hs => ⟨fun b hib => ⟨fun hle => ?_, fun hlt => ?_⟩, endsFail_of_length_ne (exec_parseVct s) hs rfl⟩
  · exact endsFail_of_body (c := .invalidFieldValue) (exec_parseVct s) hs
      ((parseVctBody_of_byte hib).trans (by rw [require_of_not (Nat.not_lt.mpr hle), error_bind]))
  · rw [BitVec.ofNat_toNat]
    exact endsOk_of_body (exec_parseVct s) hs ((parseVctBody_of_byte hib).trans (by rw [require_of hlt, ok_bind]))

/-- Settles O19: each delta is the big-endian number of its two bytes (R106). -/
theorem parseVtReadsSixDeltas : Obligations.ParseVtReadsSixDeltas := by
  unfold Obligations.ParseVtReadsSixDeltas
  refine fun s p hs => ⟨fun a0 b0 a1 b1 a2 b2 a3 b3 a4 b4 a5 b5 hib => ?_,
    endsFail_of_length_ne (exec_parseVt s) hs rfl⟩
  simp only [← beNat_two]
  exact endsOk_of_body (exec_parseVt s) hs (parseVtBody_of_bytes hib)

/-- The nine VSIZE commands are one pseudocode with the type's constant (R73). -/
theorem exec_fixedSize (s : State) : ∀ r ∈ fixedSizes, exec r.1 s = runPort r.1 (vsizeBody r.2) s := by
  simp [fixedSizes, exec_vsizeAst, exec_vsizeAl, exec_vsizeToff, exec_vsizeTsn, exec_vsizeCvo, exec_vsizeCvoraw,
    exec_vsizePdl, exec_vsizeVct, exec_vsizeVt]

/-- Settles O33: the nine commands are one pseudocode, which reads nothing. -/
theorem vsizeOfFixedTypes : Obligations.VsizeOfFixedTypes := by
  unfold Obligations.VsizeOfFixedTypes
  exact fun s p hs r hr => endsOk_of_body (exec_fixedSize s r hr) hs rfl

/-! ## WRITE (R72) -/

section
variable {α : Type} {p : Port}

/-- A read of a register stops with UnwrittenRead, if not by itself, then where the rest does. -/
theorem readV_bind_unwritten {j : Fin 8} {f : Word → Except Stop α}
    (h : ∀ x, p.v.get j = some x → f x = .error (.raise .unwrittenRead)) :
    (p.readV j >>= f) = .error (.raise .unwrittenRead) := by
  rw [Port.readV]
  cases hx : p.v.get j with
  | none => rfl
  | some x => exact h x hx

theorem readV_bind_of_some {j : Fin 8} {x : Word} {f : Word → Except Stop α} (h : p.v.get j = some x) :
    (p.readV j >>= f) = f x := by
  rw [Port.readV_eq_ok.mpr h, ok_bind]

theorem contract_bind_of {c : Prop} [Decidable c] {f : Unit → Except Stop α} (h : c) :
    (contract c >>= f) = f () := by
  rw [contract, require_of h, ok_bind]

theorem contract_bind_of_not {c : Prop} [Decidable c] {f : Unit → Except Stop α} (h : ¬ c) :
    (contract c >>= f) = .error (.raise .contractViolation) := by
  rw [contract, require_of_not h, error_bind]

end

/-- The ends of a WRITE of one value register: its value is checked by `c` and stands for `image` (R72). -/
theorem oneRegisterWrite_ends {i : Instr} {body : Params → Port → Except Stop Port} {s : State} {p : Port} {size : Nat}
    (c : Word → Prop) [DecidablePred c] (image : Word → List Byte) (hexec : exec i s = runPort i body s)
    (hs : s.Ready p) (hbody : body s.params p = (do let x ← p.readV 0; contract (c x); p.emit size (image x))) :
    (p.v.get 0 = none → EndsFault i s 0x0021#16) ∧
      ∀ x, p.v.get 0 = some x →
        (¬ c x → EndsFault i s 0x0031#16) ∧ (c x → EndsBySize i s p size (image x)) := by
  refine ⟨fun hnone => ?_, fun x hx => ⟨fun hc => ?_, fun hc => ?_⟩⟩
  · exact endsFault_of_body (k := .unwrittenRead) hexec hs
      (hbody.trans (readV_bind_unwritten fun x hx => by simp [hnone] at hx))
  · exact endsFault_of_body (k := .contractViolation) hexec hs
      (hbody.trans ((readV_bind_of_some hx).trans (contract_bind_of_not hc)))
  · exact endsBySize_of_body hexec hs (hbody.trans ((readV_bind_of_some hx).trans (contract_bind_of hc)))

/-- Settles O22, as a WRITE of one register whose image is its three big-endian bytes. -/
theorem writeAstEmitsBigEndian24 : Obligations.WriteAstEmitsBigEndian24 := by
  unfold Obligations.WriteAstEmitsBigEndian24
  intro s p hs
  obtain ⟨hnone, hsome⟩ := oneRegisterWrite_ends (·.toNat ≤ 0x00FFFFFF) (fun t => beBytes 3 t.toNat)
    (exec_writeAst s) hs (by simp only [writeAstBody, memWrite_zeros]; rfl)
  refine ⟨hnone, fun t ht => ?_⟩
  rw [← Nat.not_le, ← beBytes_three_toNat]
  exact hsome t ht

/-- Settles O24, as a WRITE of one register; its value mod 2^24 has the low three bytes of its two's complement. -/
theorem writeToffEmitsTwosComplement24 : Obligations.WriteToffEmitsTwosComplement24 := by
  unfold Obligations.WriteToffEmitsTwosComplement24
  intro s p hs
  obtain ⟨hnone, hsome⟩ := oneRegisterWrite_ends (fun o => -8388608 ≤ o.toInt ∧ o.toInt ≤ 8388607)
    (fun o => beBytes 3 (o.toInt % 2 ^ 24).toNat) (exec_writeToff s) hs
    (by simp only [writeToffBody, memWrite_zeros]; rfl)
  refine ⟨hnone, fun o ho => ?_⟩
  obtain ⟨hbad, hgood⟩ := hsome o ho
  rw [toInt_emod_toNat, beBytes_three_mod, beBytes_three_toNat] at hgood
  exact ⟨fun h => hbad (by omega), fun hlow hhigh => hgood ⟨hlow, hhigh⟩⟩

/-- Settles O25, as a WRITE of one register whose image is its two big-endian bytes. -/
theorem writeTsnEmitsBigEndian16 : Obligations.WriteTsnEmitsBigEndian16 := by
  unfold Obligations.WriteTsnEmitsBigEndian16
  intro s p hs
  obtain ⟨hnone, hsome⟩ := oneRegisterWrite_ends (·.toNat ≤ 0xFFFF) (fun n => beBytes 2 n.toNat) (exec_writeTsn s) hs
    (by simp only [writeTsnBody, memWrite_zeros]; rfl)
  refine ⟨hnone, fun n hn => ?_⟩
  rw [← Nat.not_le, ← beBytes_two_toNat]
  exact hsome n hn

/-- Settles O26, as a WRITE of one register whose image is ROT_TO_CVO of its low two bits. -/
theorem writeCvoConvertsFromRotation : Obligations.WriteCvoConvertsFromRotation := by
  unfold Obligations.WriteCvoConvertsFromRotation
  intro s p hs
  simp only [← Nat.not_le, ← BitVec.setWidth_eq_extractLsb' (show 2 ≤ 32 by decide)]
  exact oneRegisterWrite_ends (·.toNat ≤ 3) (fun r => [s.params.cvoOf (r.setWidth 2)]) (exec_writeCvo s) hs rfl

/-- Settles O27, as a WRITE of one register whose image is its low byte. -/
theorem writeCvorawPassesTheByte : Obligations.WriteCvorawPassesTheByte := by
  unfold Obligations.WriteCvorawPassesTheByte
  intro s p hs
  simp only [← Nat.not_le, ← BitVec.setWidth_eq_extractLsb' (show 8 ≤ 32 by decide)]
  exact oneRegisterWrite_ends (·.toNat ≤ 0xFF) (fun b => [b.setWidth 8]) (exec_writeCvoraw s) hs rfl

/-- Settles O29, as a WRITE of one register whose image is its low byte, below VCT_COUNT. -/
theorem writeVctEmitsTheByte : Obligations.WriteVctEmitsTheByte := by
  unfold Obligations.WriteVctEmitsTheByte
  intro s p hs
  simp only [← Nat.not_lt, ← BitVec.setWidth_eq_extractLsb' (show 8 ≤ 32 by decide)]
  exact oneRegisterWrite_ends (·.toNat < s.params.vctCount) (fun c => [c.setWidth 8]) (exec_writeVct s) hs rfl

section
variable {P : Params} {p : Port}

theorem writeAlBody_of_values {va lv : Word} (hva : p.v.get 0 = some va) (hlv : p.v.get 1 = some lv) :
    writeAlBody P p = (do
      contract (va.toNat ≤ 1); contract (lv.toNat ≤ 127); p.emit 1 [va.setWidth 8 <<< 7 ||| lv.setWidth 8]) := by
  rw [writeAlBody, readV_bind_of_some hva, readV_bind_of_some hlv]; rfl

theorem writePdlBody_of_values {mn mx : Word} (hmn : p.v.get 0 = some mn) (hmx : p.v.get 1 = some mx) :
    writePdlBody P p = (do
      contract (0 ≤ mn.toInt ∧ mn.toInt ≤ mx.toInt ∧ mx.toInt ≤ P.pdlMaxMs)
      p.emit 3 (beBytes 3 ((mn.toNat / P.pdlG) <<< 12 ||| mx.toNat / P.pdlG))) := by
  rw [writePdlBody, readV_bind_of_some hmn, readV_bind_of_some hmx]
  simp only [memWrite_zeros]; rfl

theorem writeVtBody_of_values {d0 d1 d2 d3 d4 d5 : Word} (h0 : p.v.get 0 = some d0) (h1 : p.v.get 1 = some d1)
    (h2 : p.v.get 2 = some d2) (h3 : p.v.get 3 = some d3) (h4 : p.v.get 4 = some d4) (h5 : p.v.get 5 = some d5) :
    writeVtBody P p = (do
      contract (d0.toNat ≤ 0xFFFF ∧ d1.toNat ≤ 0xFFFF ∧ d2.toNat ≤ 0xFFFF ∧ d3.toNat ≤ 0xFFFF ∧ d4.toNat ≤ 0xFFFF ∧
        d5.toNat ≤ 0xFFFF)
      p.emit 12 (beBytes 2 d0.toNat ++ beBytes 2 d1.toNat ++ beBytes 2 d2.toNat ++ beBytes 2 d3.toNat ++
        beBytes 2 d4.toNat ++ beBytes 2 d5.toNat)) := by
  rw [writeVtBody, readV_bind_of_some h0, readV_bind_of_some h1, readV_bind_of_some h2, readV_bind_of_some h3,
    readV_bind_of_some h4, readV_bind_of_some h5]
  simp only [memWrite_six_halves]; rfl

end

/-- Settles O23: both registers are read before the first bound is checked (R81). -/
theorem writeAlPacksFlagAndLevel : Obligations.WriteAlPacksFlagAndLevel := by
  unfold Obligations.WriteAlPacksFlagAndLevel
  refine fun s p hs => ⟨fun hnone => ?_, fun va lv hva hlv => ?_⟩
  · refine endsFault_of_body (k := .unwrittenRead) (exec_writeAl s) hs ?_
    exact readV_bind_unwritten fun va hva => readV_bind_unwritten fun lv hlv => by simp [hva, hlv] at hnone
  have hbody := writeAlBody_of_values (P := s.params) hva hlv
  refine ⟨fun hbad => ?_, fun hva1 hlv127 => ?_⟩
  · refine endsFault_of_body (k := .contractViolation) (exec_writeAl s) hs (hbody.trans ?_)
    by_cases hva1 : va.toNat ≤ 1
    · rw [contract_bind_of hva1, contract_bind_of_not (by omega)]
    · rw [contract_bind_of_not hva1]
  · rw [← flag_or_level_eq hva1 hlv127]
    exact endsBySize_of_body (exec_writeAl s) hs
      (hbody.trans ((contract_bind_of hva1).trans (contract_bind_of hlv127)))

/-- Settles O28: under R97's law the two counts have 12 bits each, so the packed word is their sum with the shift. -/
theorem writePdlQuantises : Obligations.WritePdlQuantises := by
  unfold Obligations.WritePdlQuantises
  refine fun s p hs hfits => ⟨fun hnone => ?_, fun mn mx hmn hmx => ?_⟩
  · refine endsFault_of_body (k := .unwrittenRead) (exec_writePdl s) hs ?_
    exact readV_bind_unwritten fun mn hmn => readV_bind_unwritten fun mx hmx => by simp [hmn, hmx] at hnone
  have hbody := writePdlBody_of_values (P := s.params) hmn hmx
  refine ⟨fun hbad => ?_, fun hlow hle hhigh minRaw maxRaw hmin hmax => ?_⟩
  · exact endsFault_of_body (k := .contractViolation) (exec_writePdl s) hs
      (hbody.trans (contract_bind_of_not (by omega)))
  · rw [← beBytes_pdlWord (hmax ▸ pdlCount_lt hfits (hlow.trans hle) hhigh), hmin, hmax]
    exact endsBySize_of_body (exec_writePdl s) hs (hbody.trans (contract_bind_of ⟨hlow, hle, hhigh⟩))

/-- Settles O30: all six registers are read before the bound, which is one check of the six (R107). -/
theorem writeVtEmitsSixDeltas : Obligations.WriteVtEmitsSixDeltas := by
  unfold Obligations.WriteVtEmitsSixDeltas
  refine fun s p hs => ⟨fun ⟨j, hj, hnone⟩ => ?_, fun d0 d1 d2 d3 d4 d5 h0 h1 h2 h3 h4 h5 => ?_⟩
  · refine endsFault_of_body (k := .unwrittenRead) (exec_writeVt s) hs ?_
    refine readV_bind_unwritten fun d0 h0 => readV_bind_unwritten fun d1 h1 => readV_bind_unwritten fun d2 h2 =>
      readV_bind_unwritten fun d3 h3 => readV_bind_unwritten fun d4 h4 => readV_bind_unwritten fun d5 h5 => ?_
    obtain rfl | rfl | rfl | rfl | rfl | rfl : j = 0 ∨ j = 1 ∨ j = 2 ∨ j = 3 ∨ j = 4 ∨ j = 5 := by omega
    all_goals simp [h0, h1, h2, h3, h4, h5] at hnone
  have hbody := writeVtBody_of_values (P := s.params) h0 h1 h2 h3 h4 h5
  simp only [List.mem_cons, List.not_mem_nil, or_false, exists_eq_or_imp, exists_eq_left, forall_eq_or_imp, forall_eq]
  refine ⟨fun hbad => ?_, fun hgood => ?_⟩
  · exact endsFault_of_body (k := .contractViolation) (exec_writeVt s) hs
      (hbody.trans (contract_bind_of_not (by omega)))
  · have himage := endsBySize_of_body (exec_writeVt s) hs (hbody.trans (contract_bind_of hgood))
    simp only [beBytes_two_toNat] at himage
    exact himage

/-! ## The default rotation conversion (R89) -/

/-- Settles O42: the tables of the default conversion, compared entry by entry. -/
theorem defaultRotationConversion : Obligations.DefaultRotationConversion := by
  unfold Obligations.DefaultRotationConversion
  exact ⟨by decide, by decide, by decide⟩

/-! ## What a WRITE that ended ok leaves behind -/

section
variable {i : Instr} {write : Params → Port → Except Stop Port} {s t : State} {p q : Port}

/-- Such a WRITE answered, and its answer, with STATUS OK, is the port it leaves. -/
theorem write_answered (hw : exec i s = runPort i write s)
    (hfail : StopsIn (fun stop => ∀ c, stop ≠ .fail c) (write s.params p)) (hs : s.Ready p)
    (hexec : exec i s = .next t) (ht : ¬ t.halted) (hq : t.port? = some q) :
    ∃ q', write s.params p = .ok q' ∧ q'.setStatus .ok = q ∧ t = s.setPort q := by
  obtain ⟨-, hport⟩ := hs
  obtain ⟨q', hbody, rfl⟩ := runPort_ok_of_running hport hfail (hw.symm.trans hexec) ht
  obtain rfl : q'.setStatus .ok = q := Option.some.inj ((State.setPort_port? _ hport).symm.trans hq)
  exact ⟨q', hbody, rfl, rfl⟩

/-- After a WRITE that ended ok, a PARSE of the bytes it wrote ends as its pseudocode answers on a port that holds them
in IB (R75). -/
theorem exec_parse_of_write {r : Instr} {parse : Params → Port → Except Stop Port} {p' : Port} {Good : Port → Prop}
    (hw : exec i s = runPort i write s) (hr : ∀ s, exec r s = runPort r parse s)
    (hfail : StopsIn (fun stop => ∀ c, stop ≠ .fail c) (write s.params p)) (hs : s.Ready p)
    (hexec : exec i s = .next t) (ht : ¬ t.halted) (hq : t.port? = some q) (hib : p'.ib = q.ob)
    (hback : ∀ q', write s.params p = .ok q' → p'.ib = q'.ob → ∃ b, parse s.params p' = .ok b ∧ Good b) :
    ∃ b, EndsOk r (t.setPort p') b ∧ Good b := by
  obtain ⟨q', hbody, rfl, rfl⟩ := write_answered hw hfail hs hexec ht hq
  obtain ⟨b, hparse, hgood⟩ := hback q' hbody hib
  exact ⟨b, endsOk_of_body (hr _) ⟨ht, State.setPort_port? p' hq⟩ hparse, hgood⟩

end

/-! ## The size law (R74) -/

/-- When the WRITE answers, OLEN holds the number of bytes in OB (R72). -/
def FillsOLEN (write : Params → Port → Except Stop Port) : Prop :=
  ∀ P p q, write P p = .ok q → p.olen = some (BitVec.ofNat 32 q.ob.length)

namespace FillsOLEN

theorem ast : FillsOLEN writeAstBody := fun _ _ _ h => by
  obtain ⟨t, -, -, holen, rfl⟩ := writeAstBody_eq_ok.mp h
  simp [holen]

theorem al : FillsOLEN writeAlBody := fun _ _ _ h => by
  obtain ⟨va, -, lv, -, -, -, holen, rfl⟩ := writeAlBody_eq_ok.mp h
  simp [holen]

theorem toff : FillsOLEN writeToffBody := fun _ _ _ h => by
  obtain ⟨o, -, -, holen, rfl⟩ := writeToffBody_eq_ok.mp h
  simp [holen]

theorem tsn : FillsOLEN writeTsnBody := fun _ _ _ h => by
  obtain ⟨n, -, -, holen, rfl⟩ := writeTsnBody_eq_ok.mp h
  simp [holen]

theorem cvo : FillsOLEN writeCvoBody := fun _ _ _ h => by
  obtain ⟨r, -, -, holen, rfl⟩ := writeCvoBody_eq_ok.mp h
  simp [holen]

theorem cvoraw : FillsOLEN writeCvorawBody := fun _ _ _ h => by
  obtain ⟨b, -, -, holen, rfl⟩ := writeCvorawBody_eq_ok.mp h
  simp [holen]

theorem pdl : FillsOLEN writePdlBody := fun _ _ _ h => by
  obtain ⟨mn, -, mx, -, -, holen, rfl⟩ := writePdlBody_eq_ok.mp h
  simp [holen]

theorem vct : FillsOLEN writeVctBody := fun _ _ _ h => by
  obtain ⟨c, -, -, holen, rfl⟩ := writeVctBody_eq_ok.mp h
  simp [holen]

theorem vt : FillsOLEN writeVtBody := fun _ _ _ h => by
  obtain ⟨d0, -, d1, -, d2, -, d3, -, d4, -, d5, -, -, holen, rfl⟩ := writeVtBody_eq_ok.mp h
  simp [holen]

/-- SLEN is at most the 16 bytes of SB, so all its bytes are read. -/
theorem streamId : FillsOLEN writeStreamIdBody := fun P p _ h => by
  obtain ⟨n, -, ⟨-, hle⟩, bytes, hbytes, b0, -, -, holen, rfl⟩ := writeStreamIdBody_eq_ok.mp h
  have hlength : bytes.length = min n.toNat 16 := by
    have hread := Yields.readSB (E := fun _ => True) (p := p) (n := n.toNat) trivial
    rwa [hbytes] at hread
  have hmax := P.rsidMax.isLt
  rw [holen, Port.setOB_ob, hlength, Nat.min_eq_left (by omega)]
  rfl

theorem fm : FillsOLEN writeFmBody := fun _ _ _ h => by
  obtain ⟨start, -, fin, -, ind, -, disc, -, bs, -, tid, -, lid, -, tl0, -, -, -, -, holen, rfl⟩ :=
    writeFmBody_eq_ok.mp h
  rw [holen, Port.setOB_ob, frameMarkingSize, frameMarkingImage]
  split <;> rfl

end FillsOLEN

/-- The twelve types, each with the pseudocode of its WRITE and its VSIZE and what is known of both. -/
theorem exists_sizedWrite : ∀ r ∈ writeSizePairs, ∃ write size, (∀ s, exec r.1 s = runPort r.1 write s) ∧
    (∀ s, exec r.2 s = runPort r.2 size s) ∧ SizedWrite write size ∧ FillsOLEN write := by
  simp only [writeSizePairs, List.forall_mem_cons, List.not_mem_nil, false_imp_iff, implies_true, and_true]
  exact
    ⟨⟨_, _, exec_writeAst, exec_vsizeAst, .ast, .ast⟩, ⟨_, _, exec_writeAl, exec_vsizeAl, .al, .al⟩,
      ⟨_, _, exec_writeToff, exec_vsizeToff, .toff, .toff⟩, ⟨_, _, exec_writeTsn, exec_vsizeTsn, .tsn, .tsn⟩,
      ⟨_, _, exec_writeCvo, exec_vsizeCvo, .cvo, .cvo⟩, ⟨_, _, exec_writeCvoraw, exec_vsizeCvoraw, .cvoraw, .cvoraw⟩,
      ⟨_, _, exec_writePdl, exec_vsizePdl, .pdl, .pdl⟩, ⟨_, _, exec_writeVct, exec_vsizeVct, .vct, .vct⟩,
      ⟨_, _, exec_writeVt, exec_vsizeVt, .vt, .vt⟩, ⟨_, _, exec_writeRsid, exec_vsizeRsid, .streamId, .streamId⟩,
      ⟨_, _, exec_writeRrsid, exec_vsizeRrsid, .streamId, .streamId⟩, ⟨_, _, exec_writeFm, exec_vsizeFm, .fm, .fm⟩⟩

/-- Settles O43: VSIZE gives the OLEN that the WRITE ended ok with, and the WRITE filled exactly that many bytes. -/
theorem sizeLaw : Obligations.SizeLaw := by
  unfold Obligations.SizeLaw
  intro r hr s t p q hs hexec ht hq
  obtain ⟨write, size, hw, hz, hsized, hfills⟩ := exists_sizedWrite r hr
  obtain ⟨q', hbody, rfl, rfl⟩ := write_answered (hw s) (hsized.never_fails _ _) hs hexec ht hq
  obtain ⟨n, hn, hsize, -⟩ := hsized.answers (olen := p.olen) hbody
  obtain rfl : n = BitVec.ofNat 32 q'.ob.length := Option.some.inj (hn.symm.trans (hfills _ _ _ hbody))
  exact endsOk_of_body (hz s) hs hsize

/-! ## The round trips (R75) -/

/-- From the bytes that the WRITE answers with, the PARSE answers the values that the registers of the type held. -/
def BringsBack (P : Params) (write parse : Params → Port → Except Stop Port) (regs : List (Fin 8)) : Prop :=
  ∀ p q p' : Port, write P p = .ok q → p'.ib = q.ob → ∃ b, parse P p' = .ok b ∧ ∀ j ∈ regs, b.v.get j = p.v.get j

theorem zext32_toNat (x : Word) : zext32 x.toNat = x := by
  rw [zext32, BitVec.ofNat_toNat, BitVec.setWidth_eq]

theorem zext32_mod_of_lt {x : Word} {m : Nat} (h : x.toNat < m) : zext32 (x.toNat % m) = x := by
  rw [Nat.mod_eq_of_lt h, zext32_toNat]

/-- A value that fits the low bits comes back from them. -/
theorem setWidth_setWidth_of_lt {x : Word} {n : Nat} (h : x.toNat < 2 ^ n) :
    (x.setWidth n).setWidth 32 = x := by
  apply BitVec.eq_of_toNat_eq
  rw [BitVec.toNat_setWidth, BitVec.toNat_setWidth, Nat.mod_eq_of_lt h, Nat.mod_eq_of_lt x.isLt]

theorem zext32_beNat_halves {x : Word} (h : x.toNat ≤ 0xFFFF) :
    zext32 (beNat [x.extractLsb' 8 8, x.extractLsb' 0 8]) = x := by
  rw [← beBytes_two_toNat, beNat_beBytes, zext32_mod_of_lt (by omega)]

namespace BringsBack

variable {P : Params}

theorem ast : BringsBack P writeAstBody parseAstBody [0] := fun _ _ _ h hib => by
  obtain ⟨t, ht, hle, -, rfl⟩ := writeAstBody_eq_ok.mp h
  refine ⟨_, parseAstBody_of_length (by simp [hib]), ?_⟩
  rw [hib, Port.setOB_ob, beNat_beBytes, zext32_mod_of_lt (by omega)]
  simp [ht]

theorem al : BringsBack P writeAlBody parseAlBody [0, 1] := fun _ _ _ h hib => by
  obtain ⟨va, hva, lv, hlv, hva1, hlv127, -, rfl⟩ := writeAlBody_eq_ok.mp h
  rw [flag_or_level_eq hva1 hlv127] at hib
  refine ⟨_, parseAlBody_of_byte hib, ?_⟩
  have hbyte : (BitVec.ofNat 8 (va.toNat * 128 + lv.toNat)).toNat = va.toNat * 128 + lv.toNat :=
    BitVec.toNat_ofNat _ _ |>.trans (Nat.mod_eq_of_lt (by omega))
  have hflag : (va.toNat * 128 + lv.toNat) / 128 = va.toNat := by omega
  have hlevel : (va.toNat * 128 + lv.toNat) % 128 = lv.toNat := by omega
  rw [field_flag, field_level, hbyte, hflag, hlevel, zext32_toNat, zext32_toNat]
  simp [hva, hlv]

theorem toff : BringsBack P writeToffBody parseToffBody [0] := fun _ _ _ h hib => by
  obtain ⟨o, ho, ⟨hlow, hhigh⟩, -, rfl⟩ := writeToffBody_eq_ok.mp h
  refine ⟨_, parseToffBody_of_length (by simp [hib]), ?_⟩
  rw [hib, Port.setOB_ob, beNat_beBytes, Nat.mod_eq_of_lt (by omega), sext24_of_range hlow hhigh]
  simp [ho]

theorem tsn : BringsBack P writeTsnBody parseTsnBody [0] := fun _ _ _ h hib => by
  obtain ⟨n, hn, hle, -, rfl⟩ := writeTsnBody_eq_ok.mp h
  refine ⟨_, parseTsnBody_of_length (by simp [hib]), ?_⟩
  rw [hib, Port.setOB_ob, beNat_beBytes, zext32_mod_of_lt (by omega)]
  simp [hn]

theorem cvoraw : BringsBack P writeCvorawBody parseCvorawBody [0] := fun _ _ _ h hib => by
  obtain ⟨b, hb, hle, -, rfl⟩ := writeCvorawBody_eq_ok.mp h
  refine ⟨_, parseCvorawBody_of_byte hib, ?_⟩
  rw [setWidth_setWidth_of_lt (by omega)]
  simp [hb]

/-- The content type fits its byte, so the byte passes the check that the value passed. -/
theorem vct (hfits : P.ContentTypeFits) : BringsBack P writeVctBody parseVctBody [0] := fun _ _ _ h hib => by
  obtain ⟨c, hc, hlt, -, rfl⟩ := writeVctBody_eq_ok.mp h
  have hbyte : (c.setWidth 8).toNat = c.toNat := (BitVec.toNat_setWidth ..).trans (Nat.mod_eq_of_lt (by omega))
  refine ⟨_, (parseVctBody_of_byte hib).trans (by rw [require_of (hbyte ▸ hlt), ok_bind]), ?_⟩
  rw [setWidth_setWidth_of_lt (by omega)]
  simp [hc]

theorem vt : BringsBack P writeVtBody parseVtBody [0, 1, 2, 3, 4, 5] := fun _ _ _ h hib => by
  obtain ⟨d0, h0, d1, h1, d2, h2, d3, h3, d4, h4, d5, h5, ⟨hle0, hle1, hle2, hle3, hle4, hle5⟩, -, rfl⟩ :=
    writeVtBody_eq_ok.mp h
  simp only [beBytes_two_toNat] at hib
  refine ⟨_, parseVtBody_of_bytes hib, ?_⟩
  rw [zext32_beNat_halves hle0, zext32_beNat_halves hle1, zext32_beNat_halves hle2, zext32_beNat_halves hle3,
    zext32_beNat_halves hle4, zext32_beNat_halves hle5]
  simp [h0, h1, h2, h3, h4, h5]

/-- A rotation code has two bits; the conversion there and back is the inverse law's (R89). -/
theorem cvo (hinverse : ∀ r, P.rotationOf (P.cvoOf r) = r) : BringsBack P writeCvoBody parseCvoBody [0] :=
    fun _ _ _ h hib => by
  obtain ⟨r, hr, hle, -, rfl⟩ := writeCvoBody_eq_ok.mp h
  refine ⟨_, parseCvoBody_of_byte hib, ?_⟩
  rw [hinverse, setWidth_setWidth_of_lt (by omega)]
  simp [hr]

end BringsBack

/-- The types of the unrestricted law, each with the pseudocode of its WRITE and its PARSE and what is known of both. -/
theorem exists_bringsBack : ∀ r ∈ roundTripTypes, ∃ write parse, (∀ s, exec r.1 s = runPort r.1 write s) ∧
    (∀ s, exec r.2.1 s = runPort r.2.1 parse s) ∧ (∀ P p, StopsIn (fun stop => ∀ c, stop ≠ .fail c) (write P p)) ∧
    ∀ P : Params, P.ContentTypeFits → BringsBack P write parse r.2.2 := by
  simp only [roundTripTypes, List.forall_mem_cons, List.not_mem_nil, false_imp_iff, implies_true, and_true]
  exact
    ⟨⟨_, _, exec_writeAst, exec_parseAst, SizedWrite.ast.never_fails, fun _ _ => .ast⟩,
      ⟨_, _, exec_writeAl, exec_parseAl, SizedWrite.al.never_fails, fun _ _ => .al⟩,
      ⟨_, _, exec_writeToff, exec_parseToff, SizedWrite.toff.never_fails, fun _ _ => .toff⟩,
      ⟨_, _, exec_writeTsn, exec_parseTsn, SizedWrite.tsn.never_fails, fun _ _ => .tsn⟩,
      ⟨_, _, exec_writeCvoraw, exec_parseCvoraw, SizedWrite.cvoraw.never_fails, fun _ _ => .cvoraw⟩,
      ⟨_, _, exec_writeVct, exec_parseVct, SizedWrite.vct.never_fails, fun _ hfits => .vct hfits⟩,
      ⟨_, _, exec_writeVt, exec_parseVt, SizedWrite.vt.never_fails, fun _ _ => .vt⟩⟩

/-- Settles O44, by the type: what the WRITE answered with is what its PARSE reads back. -/
theorem roundTripOfFixedTypes : Obligations.RoundTripOfFixedTypes := by
  unfold Obligations.RoundTripOfFixedTypes
  intro r hr s t p q other hs hfits hexec ht hq
  obtain ⟨write, parse, hw, hparse, hfail, hback⟩ := exists_bringsBack r hr
  exact exec_parse_of_write (hw s) hparse (hfail _ _) hs hexec ht hq rfl fun q' => hback _ hfits _ q' _

/-- Settles O46: the inverse law is applied to the code that the WRITE converted. -/
theorem roundTripOfRotation : Obligations.RoundTripOfRotation := by
  unfold Obligations.RoundTripOfRotation
  intro s t p q other hs hinverse hexec ht hq
  refine exec_parse_of_write (exec_writeCvo s) exec_parseCvo (SizedWrite.cvo.never_fails _ _) hs hexec ht hq rfl
    fun q' hbody hib => ?_
  obtain ⟨b, hparse, hregs⟩ := BringsBack.cvo hinverse _ _ _ hbody hib
  exact ⟨b, hparse, hregs 0 (List.mem_singleton_self 0)⟩

/-- From the bytes that WRITE.PDL answers with, PARSE.PDL answers the two limits, each quantised (R97). -/
theorem parsePdlBody_of_writePdlBody {P : Params} {p q p' : Port} {mn mx : Word} (hceiling : P.CeilingFits)
    (hmn : p.v.get 0 = some mn) (hmx : p.v.get 1 = some mx) (hwrite : writePdlBody P p = .ok q) (hib : p'.ib = q.ob) :
    parsePdlBody P p' =
      .ok ((p'.setV 0 (zext32 (mn.toNat / P.pdlG * P.pdlG))).setV 1 (zext32 (mx.toNat / P.pdlG * P.pdlG))) := by
  obtain ⟨mn', hmn', mx', hmx', ⟨hlow, hle, hhigh⟩, -, rfl⟩ := writePdlBody_eq_ok.mp hwrite
  obtain rfl : mn = mn' := Option.some.inj (hmn.symm.trans hmn')
  obtain rfl : mx = mx' := Option.some.inj (hmx.symm.trans hmx')
  have hmax := pdlCount_lt hceiling (hlow.trans hle) hhigh
  have hcounts : mn.toNat / P.pdlG ≤ mx.toNat / P.pdlG := by
    have hmnNat := toNat_of_toInt_nonneg hlow
    have hmxNat := toNat_of_toInt_nonneg (hlow.trans hle)
    exact Nat.div_le_div_right (by omega)
  have hword : beNat p'.ib = mn.toNat / P.pdlG * 4096 + mx.toNat / P.pdlG := by
    rw [hib, Port.setOB_ob, pdlWord_eq hmax, beNat_beBytes, Nat.mod_eq_of_lt (by omega)]
  rw [parsePdlBody_of_counts (by simp [hib]) hword (by omega) hmax, require_of hcounts, ok_bind]

/-- Settles O45: what comes back is each limit quantised, which is the limit itself just when PDL_G divides it. -/
theorem roundTripOfPlayoutDelay : Obligations.RoundTripOfPlayoutDelay := by
  unfold Obligations.RoundTripOfPlayoutDelay
  intro s t p q other mn mx hs hceiling _ hmn hmx hexec ht hq
  refine exec_parse_of_write (exec_writePdl s) exec_parsePdl (SizedWrite.pdl.never_fails _ _) hs hexec ht hq rfl
    fun q' hwrite hib => ⟨_, parsePdlBody_of_writePdlBody hceiling hmn hmx hwrite hib, ?_⟩
  simp [zext32_quantised]

end Sys2Proof.Machine

/-! The three variable-size codec types and the VP9 helper (spec/41_codec_variable.md). A StreamId is followed through SB
byte by byte, a FrameMarking through the arithmetic of its first byte; the endings of R19 and R72 and the round trips of
R75 and R124 are read off the same equations of the pseudocode. -/

namespace Sys2Proof.Machine

/-! ## Reads and checks at the start of a pseudocode -/

section
variable {α : Type} {p : Port}

theorem requireIB_bind_of {c : Nat → Bool} {f : Unit → Except Stop α} (h : c p.ib.length = true) :
    (p.requireIB c >>= f) = f () := by
  rw [Port.requireIB, require_of h, ok_bind]

theorem requireIB_bind_of_not {c : Nat → Bool} {f : Unit → Except Stop α} (h : ¬ c p.ib.length = true) :
    (p.requireIB c >>= f) = .error (.fail .malformedLength) := by
  rw [Port.requireIB, require_of_not h, error_bind]

theorem byteAt_cons_zero (b : Byte) (rest : List Byte) : byteAt (b :: rest) 0 = .ok b := rfl

theorem readSLEN_bind_of_none {f : Nat → Except Stop α} (h : p.slen = none) :
    (p.readSLEN >>= f) = .error (.raise .unwrittenRead) := by
  rw [Port.readSLEN, h]; rfl

theorem readSLEN_bind_of_some {n : BitVec 5} {f : Nat → Except Stop α} (h : p.slen = some n) :
    (p.readSLEN >>= f) = f n.toNat := by
  rw [Port.readSLEN_eq_ok.mpr ⟨n, h, rfl⟩, ok_bind]

/-- Where register j holds no value, a read of register i stops with UnwrittenRead, or i is not j and the rest does. -/
theorem readV_bind_of_none {i j : Fin 8} {f : Word → Except Stop α} (hj : p.v.get j = none)
    (h : j ≠ i → ∀ x, f x = .error (.raise .unwrittenRead)) : (p.readV i >>= f) = .error (.raise .unwrittenRead) := by
  refine readV_bind_unwritten fun x hx => h ?_ x
  rintro rfl
  simp [hj] at hx

end

/-! ## The bytes of SB (R27, R112) -/

section
variable {p : Port} {n : Nat}

/-- A read of SB within its 16 bytes answers the bytes that SB holds there. -/
theorem readSB_eq_ok_iff (hn : n ≤ 16) {bytes : List Byte} :
    p.readSB n = .ok bytes ↔ bytes.length = n ∧ ∀ k : Fin 16, k.val < n → p.sb.get k = bytes[k.val]? := by
  rw [Port.readSB, heldAll_eq_ok]
  constructor
  · intro h
    have hlength : bytes.length = n := by
      have hlengths := congrArg List.length h
      simp only [List.length_take, Vector.length_toList, List.length_map] at hlengths
      omega
    refine ⟨hlength, fun k hk => ?_⟩
    have hget := congrArg (·[k.val]?) h
    simpa [List.getElem?_take_of_lt hk, Vector.get_eq_getElem, hlength, hk] using hget
  · rintro ⟨hlength, hbytes⟩
    refine List.ext_getElem (by simp; omega) fun k hk _ => ?_
    have hk' : k < n := by simp only [List.length_take] at hk; omega
    simpa [Vector.get_eq_getElem, hlength, hk'] using hbytes ⟨k, by omega⟩ hk'

theorem readSB_of_none (k : Fin 16) (hk : k.val < n) (hnone : p.sb.get k = none) :
    p.readSB n = .error (.raise .unwrittenRead) := by
  rw [Port.readSB, heldAll_eq_error]
  refine ⟨List.mem_take_iff_getElem.mpr ⟨k.val, by simp [hk], ?_⟩, rfl⟩
  simpa [Vector.get_eq_getElem] using hnone

end

/-! ## StreamId: the pseudocode of PARSE and WRITE (R111, R112) -/

section
variable {P : Params} {p : Port}

theorem parseStreamIdBody_of_tooLong (h : P.rsidMax.val < p.ib.length) :
    parseStreamIdBody P p = .error (.fail .malformedLength) := by
  rw [parseStreamIdBody, requireIB_bind_of_not (by simpa using h)]

theorem parseStreamIdBody_of_nil (h : p.ib = []) : parseStreamIdBody P p = .error (.fail .invalidFieldValue) := by
  rw [parseStreamIdBody, requireIB_bind_of (by simp [h]), require_of_not (by simp [h]), error_bind]

theorem parseStreamIdBody_of_cons {b : Byte} {rest : List Byte} (h : p.ib = b :: rest)
    (hle : p.ib.length ≤ P.rsidMax.val) :
    parseStreamIdBody P p =
      (require (b ≠ 0x00#8) (.fail .invalidFieldValue) >>= fun _ => .ok (p.setStreamId p.ib)) := by
  rw [parseStreamIdBody, requireIB_bind_of (by simpa using hle), require_of (by simp [h]), ok_bind, h,
    byteAt_cons_zero]
  rfl

variable {n : BitVec 5}

theorem writeStreamIdBody_of_unfit (hn : p.slen = some n) (h : ¬ (n.toNat ≠ 0 ∧ n.toNat ≤ P.rsidMax.val)) :
    writeStreamIdBody P p = .error (.raise .contractViolation) := by
  rw [writeStreamIdBody, readSLEN_bind_of_some hn, contract_bind_of_not h]

theorem writeStreamIdBody_of_missing (hn : p.slen = some n) (hfit : n.toNat ≠ 0 ∧ n.toNat ≤ P.rsidMax.val)
    (hread : p.readSB n.toNat = .error (.raise .unwrittenRead)) :
    writeStreamIdBody P p = .error (.raise .unwrittenRead) := by
  rw [writeStreamIdBody, readSLEN_bind_of_some hn, contract_bind_of hfit, hread, error_bind]

theorem writeStreamIdBody_of_bytes {b : Byte} {rest : List Byte} (hn : p.slen = some n)
    (hfit : n.toNat ≠ 0 ∧ n.toNat ≤ P.rsidMax.val) (hread : p.readSB n.toNat = .ok (b :: rest)) :
    writeStreamIdBody P p = (do contract (b ≠ 0x00#8); p.emit n.toNat (b :: rest)) := by
  rw [writeStreamIdBody, readSLEN_bind_of_some hn, contract_bind_of hfit, hread, ok_bind, byteAt_cons_zero]
  rfl

end

/-- PARSE.RSID and PARSE.RRSID are one pseudocode (R114). -/
theorem exec_parseStreamId (s : State) :
    ∀ i ∈ [Instr.parseRsid, .parseRrsid], exec i s = runPort i parseStreamIdBody s := by
  simp [exec_parseRsid, exec_parseRrsid]

/-- WRITE.RSID and WRITE.RRSID are one pseudocode (R115). -/
theorem exec_writeStreamId (s : State) :
    ∀ i ∈ [Instr.writeRsid, .writeRrsid], exec i s = runPort i writeStreamIdBody s := by
  simp [exec_writeRsid, exec_writeRrsid]

/-- VSIZE.RSID and VSIZE.RRSID are one pseudocode (R116). -/
theorem exec_vsizeStreamId (s : State) :
    ∀ i ∈ [Instr.vsizeRsid, .vsizeRrsid], exec i s = runPort i vsizeStreamIdBody s := by
  simp [exec_vsizeRsid, exec_vsizeRrsid]

/-! ## StreamId: the statements -/

/-- Settles O20: the length is checked first, then that there is a first byte, then that byte (R111). -/
theorem parseStreamIdLoadsTheBytes : Obligations.ParseStreamIdLoadsTheBytes := by
  unfold Obligations.ParseStreamIdLoadsTheBytes
  intro i hi s p hs
  have hexec := exec_parseStreamId s i hi
  refine ⟨fun hlong => ?_, fun hnil => ?_, fun b rest hib hle => ?_⟩
  · exact endsFail_of_body (c := .malformedLength) hexec hs (parseStreamIdBody_of_tooLong hlong)
  · exact endsFail_of_body (c := .invalidFieldValue) hexec hs (parseStreamIdBody_of_nil hnil)
  have hbody := parseStreamIdBody_of_cons hib hle
  refine ⟨fun hzero => ?_, fun hne => ⟨_, p.setStreamId_sb_get p.ib, ?_⟩⟩
  · exact endsFail_of_body (c := .invalidFieldValue) hexec hs
      (hbody.trans (by rw [require_of_not (not_not.mpr hzero), error_bind]))
  · exact endsOk_of_body (q := p.setStreamId p.ib) hexec hs (hbody.trans (by rw [require_of hne, ok_bind]))

/-- Settles O31: SLEN is bounded by RSID_MAX, hence by the 16 bytes of SB, before any byte of SB is read (R112). -/
theorem writeStreamIdEmitsTheBytes : Obligations.WriteStreamIdEmitsTheBytes := by
  unfold Obligations.WriteStreamIdEmitsTheBytes
  intro i hi s p hs
  have hexec := exec_writeStreamId s i hi
  refine ⟨fun hnone => ?_, fun n hn => ⟨fun hbad => ?_, fun hpos hmax => ⟨fun ⟨k, hk, hnone⟩ => ?_, ?_⟩⟩⟩
  · exact endsFault_of_body (k := .unwrittenRead) hexec hs (readSLEN_bind_of_none hnone)
  · exact endsFault_of_body (k := .contractViolation) hexec hs (writeStreamIdBody_of_unfit hn (by omega))
  · exact endsFault_of_body (k := .unwrittenRead) hexec hs
      (writeStreamIdBody_of_missing hn ⟨hpos, hmax⟩ (readSB_of_none k hk hnone))
  intro b rest hlength hbytes
  have hread : p.readSB n.toNat = .ok (b :: rest) := (readSB_eq_ok_iff (by omega)).mpr ⟨hlength, hbytes⟩
  have hbody := writeStreamIdBody_of_bytes hn ⟨hpos, hmax⟩ hread
  refine ⟨fun hzero => ?_, fun hne => ?_⟩
  · exact endsFault_of_body (k := .contractViolation) hexec hs (hbody.trans (contract_bind_of_not (not_not.mpr hzero)))
  · exact endsBySize_of_body hexec hs (hbody.trans (contract_bind_of hne))

/-- Settles O34: SLEN is the only register read, and it is not checked (R113). -/
theorem vsizeStreamIdReportsSlen : Obligations.VsizeStreamIdReportsSlen := by
  unfold Obligations.VsizeStreamIdReportsSlen
  intro i hi s p hs
  have hexec := exec_vsizeStreamId s i hi
  refine ⟨fun hnone => ?_, fun n hn => ?_⟩
  · exact endsFault_of_body (k := .unwrittenRead) hexec hs (readSLEN_bind_of_none hnone)
  · exact endsOk_of_body hexec hs (vsizeStreamIdBody_of_slen hn)

/-- The bytes that a WRITE of a StreamId answers with pass the checks of its PARSE, which loads them and their number. -/
theorem parseStreamIdBody_of_write {P : Params} {p q p' : Port} (hwrite : writeStreamIdBody P p = .ok q)
    (hib : p'.ib = q.ob) :
    parseStreamIdBody P p' = .ok (p'.setStreamId q.ob) ∧ p.slen = some (BitVec.ofNat 5 q.ob.length) ∧
      ∀ k : Fin 16, k.val < q.ob.length → p.sb.get k = q.ob[k.val]? := by
  obtain ⟨n, hn, ⟨-, hmax⟩, bytes, hread, b, hb, hne, -, rfl⟩ := writeStreamIdBody_eq_ok.mp hwrite
  obtain ⟨hlength, hbytes⟩ := (readSB_eq_ok_iff (by omega)).mp hread
  rw [Port.setOB_ob] at hib ⊢
  refine ⟨?_, by simp [hn, hlength], hlength ▸ hbytes⟩
  obtain ⟨rest, rfl⟩ : ∃ rest, bytes = b :: rest := by
    cases bytes with
    | nil => simp at hb
    | cons c rest => exact ⟨rest, by simpa using hb⟩
  rw [parseStreamIdBody_of_cons hib (by rw [hib]; omega), require_of hne, ok_bind, hib]

/-- Settles O48: SLEN comes back as the number of bytes written, and the bytes of SB below it as those bytes. -/
theorem roundTripOfStreamId : Obligations.RoundTripOfStreamId := by
  unfold Obligations.RoundTripOfStreamId
  rintro ⟨w, r⟩ hpair s t p q sb slen hs hexec ht hq
  obtain ⟨hw, hr⟩ : (∀ s, exec w s = runPort w writeStreamIdBody s) ∧
      ∀ s, exec r s = runPort r parseStreamIdBody s := by
    simp only [List.mem_cons, List.not_mem_nil, or_false, Prod.mk.injEq] at hpair
    rcases hpair with ⟨rfl, rfl⟩ | ⟨rfl, rfl⟩
    · exact ⟨exec_writeRsid, exec_parseRsid⟩
    · exact ⟨exec_writeRrsid, exec_parseRrsid⟩
  refine exec_parse_of_write (hw s) hr (SizedWrite.streamId.never_fails _ _) hs hexec ht hq rfl fun q' hwrite hib => ?_
  obtain ⟨hbody, hslen, hbytes⟩ := parseStreamIdBody_of_write hwrite hib
  refine ⟨_, hbody, hslen.symm, fun n hn k hk => ?_⟩
  have hlt : k.val < q'.ob.length := by
    obtain rfl : n = BitVec.ofNat 5 q'.ob.length := Option.some.inj (hn.symm.trans hslen)
    exact hk.trans_le (Nat.mod_le _ _)
  rw [Port.setStreamId_sb_get, if_pos hlt, hbytes k hlt]

/-! ## FrameMarking: the predicate of R119 and the bits of byte 0 (R120) -/

theorem eq_setWidth_byte_iff {x : Word} {b : Byte} : x = b.setWidth 32 ↔ x.toNat = b.toNat := by
  have := b.isLt
  rw [← BitVec.toNat_inj, BitVec.toNat_setWidth, Nat.mod_eq_of_lt (by omega)]

theorem scalable_iff {P : Params} {bs tid lid tl0 : Word} : scalable P bs tid lid tl0 = true ↔
    bs.toNat ≠ 0 ∨ (tid.toNat ≠ 0 ∧ tid.toNat ≠ P.noTemporalIdx.toNat) ∨
      (lid.toNat ≠ 0 ∧ lid.toNat ≠ P.noSpatialIdx.toNat) ∨ (tl0.toNat ≠ 0 ∧ tl0.toNat ≠ P.noTl0PicIdx.toNat) := by
  have hzero (x : Word) : x = 0#32 ↔ x.toNat = 0 := BitVec.toNat_inj.symm
  simp only [scalable, Bool.or_eq_true, Bool.and_eq_true, bne_iff_ne, ne_eq, hzero, eq_setWidth_byte_iff, or_assoc]

/-- A field of a byte is a quotient and a remainder of it. -/
theorem field_eq (b : Byte) (lo len : Nat) : field b lo len = zext32 (b.toNat / 2 ^ lo % 2 ^ len) := by
  apply BitVec.eq_of_toNat_eq
  simp [field, zext32, Nat.shiftRight_eq_div_pow]

/-- The low byte of a word, shifted, is the word multiplied. -/
theorem setWidth_shiftLeft_eq (x : Word) (k : Nat) : x.setWidth 8 <<< k = BitVec.ofNat 8 (x.toNat * 2 ^ k) := by
  apply BitVec.eq_of_toNat_eq
  simp [Nat.shiftLeft_eq]

/-- Where no bit of one number meets a bit of the other, their bits together are those of the sum. -/
theorem ofNat_or_ofNat_of_lt {a b : Nat} (n : Nat) (ha : 2 ^ n ∣ a) (hb : b < 2 ^ n) :
    BitVec.ofNat 8 a ||| BitVec.ofNat 8 b = BitVec.ofNat 8 (a + b) := by
  obtain ⟨c, rfl⟩ := ha
  rw [← BitVec.ofNat_or, ← Nat.two_pow_add_eq_or_of_lt hb]

/-- The four flags as the number of byte 0 that they make (R120). -/
def flagsNat (start fin ind disc : Word) : Nat :=
  start.toNat * 128 + fin.toNat * 64 + ind.toNat * 32 + disc.toNat * 16

section
variable {start fin ind disc : Word}

theorem flagBits_eq (hfin : fin.toNat ≤ 1) (hind : ind.toNat ≤ 1) (hdisc : disc.toNat ≤ 1) :
    flagBits start fin ind disc = BitVec.ofNat 8 (flagsNat start fin ind disc) := by
  simp only [flagBits, setWidth_shiftLeft_eq]
  rw [ofNat_or_ofNat_of_lt 7 (by omega) (by omega), ofNat_or_ofNat_of_lt 6 (by omega) (by omega),
    ofNat_or_ofNat_of_lt 5 (by omega) (by omega)]
  rfl

/-- Byte 0 of the three-byte form (R120, R122). -/
theorem flagBits_or_eq {bs tid : Word} (hfin : fin.toNat ≤ 1) (hind : ind.toNat ≤ 1) (hdisc : disc.toNat ≤ 1)
    (hbs : bs.toNat ≤ 1) :
    flagBits start fin ind disc ||| bs.setWidth 8 <<< 3 ||| (tid.extractLsb' 0 3).setWidth 8 =
      BitVec.ofNat 8 (flagsNat start fin ind disc + bs.toNat * 8 + tid.toNat % 8) := by
  have htid : (tid.extractLsb' 0 3).setWidth 8 = BitVec.ofNat 8 (tid.toNat % 8) := by
    apply BitVec.eq_of_toNat_eq; simp
  rw [flagBits_eq hfin hind hdisc, setWidth_shiftLeft_eq, htid, flagsNat,
    ofNat_or_ofNat_of_lt 4 (by omega) (by omega), ofNat_or_ofNat_of_lt 3 (by omega) (by omega)]
  rfl

end

section
variable {P : Params} {start fin ind disc bs tid lid tl0 : Word}

theorem frameMarkingSize_of_scalable (h : scalable P bs tid lid tl0 = true) : frameMarkingSize P bs tid lid tl0 = 3 :=
  if_pos h

theorem frameMarkingSize_of_not (h : ¬ scalable P bs tid lid tl0 = true) : frameMarkingSize P bs tid lid tl0 = 1 :=
  if_neg h

theorem frameMarkingImage_of_scalable (hfin : fin.toNat ≤ 1) (hind : ind.toNat ≤ 1) (hdisc : disc.toNat ≤ 1)
    (hbs : bs.toNat ≤ 1) (h : scalable P bs tid lid tl0 = true) :
    frameMarkingImage P start fin ind disc bs tid lid tl0 =
      [BitVec.ofNat 8 (flagsNat start fin ind disc + bs.toNat * 8 + tid.toNat % 8), lid.setWidth 8, tl0.setWidth 8] := by
  rw [frameMarkingImage, if_pos h, flagBits_or_eq hfin hind hdisc hbs]

theorem frameMarkingImage_of_not (hfin : fin.toNat ≤ 1) (hind : ind.toNat ≤ 1) (hdisc : disc.toNat ≤ 1)
    (h : ¬ scalable P bs tid lid tl0 = true) :
    frameMarkingImage P start fin ind disc bs tid lid tl0 = [BitVec.ofNat 8 (flagsNat start fin ind disc)] := by
  rw [frameMarkingImage, if_neg h, flagBits_eq hfin hind hdisc]

end

/-! ## FrameMarking: the pseudocode of PARSE and WRITE (R121, R122) -/

/-- All eight value registers written, in order (R25). -/
theorem Port.setV_all (p : Port) (x0 x1 x2 x3 x4 x5 x6 x7 : Word) :
    (((((((p.setV 0 x0).setV 1 x1).setV 2 x2).setV 3 x3).setV 4 x4).setV 5 x5).setV 6 x6).setV 7 x7 =
      { p with v := #v[some x0, some x1, some x2, some x3, some x4, some x5, some x6, some x7] } := by
  simp only [Port.setV, Port.mk.injEq, and_true]
  ext j hj
  obtain rfl | rfl | rfl | rfl | rfl | rfl | rfl | rfl :
    j = 0 ∨ j = 1 ∨ j = 2 ∨ j = 3 ∨ j = 4 ∨ j = 5 ∨ j = 6 ∨ j = 7 := by omega
  all_goals simp

/-- The eight registers that PARSE.FM writes: the flags of byte 0, then the scalable fields (R121). -/
def frameMarkingRegisters (b : Byte) (bs tid lid tl0 : Word) : Vector (Option Word) 8 :=
  #v[some (zext32 (b.toNat / 128)), some (zext32 (b.toNat / 64 % 2)), some (zext32 (b.toNat / 32 % 2)),
    some (zext32 (b.toNat / 16 % 2)), some bs, some tid, some lid, some tl0]

section
variable {P : Params} {p : Port}

theorem parseFmBody_of_byte {b : Byte} (h : p.ib = [b]) :
    parseFmBody P p = .ok { p with v := frameMarkingRegisters b 0#32 0#32 0#32 0#32 } := by
  have h0 : byteAt p.ib 0 = .ok b := by rw [h]; rfl
  rw [parseFmBody, requireIB_bind_of (by simp [h]), h0, ok_bind, if_neg (by simp [h]), pure_eq_ok, Port.setV_all,
    field_flag, field_eq, field_eq, field_eq]
  rfl

theorem parseFmBody_of_bytes {b0 b1 b2 : Byte} (h : p.ib = [b0, b1, b2]) :
    parseFmBody P p = .ok { p with
      v := frameMarkingRegisters b0 (zext32 (b0.toNat / 8 % 2)) (zext32 (b0.toNat % 8)) (zext32 b1.toNat)
        (zext32 b2.toNat) } := by
  have h0 : byteAt p.ib 0 = .ok b0 := by rw [h]; rfl
  have h1 : byteAt p.ib 1 = .ok b1 := by rw [h]; rfl
  have h2 : byteAt p.ib 2 = .ok b2 := by rw [h]; rfl
  rw [parseFmBody, requireIB_bind_of (by simp [h]), h0, ok_bind, if_pos (by simp [h]), h1, ok_bind, h2, ok_bind,
    pure_eq_ok, Port.setV_all, field_flag, field_eq, field_eq, field_eq, field_eq, field_eq, Nat.pow_zero, Nat.div_one,
    ← BitVec.ofNat_toNat, ← BitVec.ofNat_toNat]
  rfl

theorem parseFmBody_of_length (h1 : p.ib.length ≠ 1) (h3 : p.ib.length ≠ 3) :
    parseFmBody P p = .error (.fail .malformedLength) := by
  rw [parseFmBody, requireIB_bind_of_not (by simp [h1, h3])]

theorem writeFmBody_of_none {j : Fin 8} (hj : p.v.get j = none) :
    writeFmBody P p = .error (.raise .unwrittenRead) := by
  refine readV_bind_of_none hj fun h0 _ => readV_bind_of_none hj fun h1 _ => readV_bind_of_none hj fun h2 _ =>
    readV_bind_of_none hj fun h3 _ => readV_bind_of_none hj fun h4 _ => readV_bind_of_none hj fun h5 _ =>
    readV_bind_of_none hj fun h6 _ => readV_bind_of_none hj fun h7 _ => ?_
  omega

theorem vsizeFmBody_of_none {j : Fin 8} (hle : 4 ≤ j.val) (hj : p.v.get j = none) :
    vsizeFmBody P p = .error (.raise .unwrittenRead) := by
  refine readV_bind_of_none hj fun h4 _ => readV_bind_of_none hj fun h5 _ => readV_bind_of_none hj fun h6 _ =>
    readV_bind_of_none hj fun h7 _ => ?_
  omega

/-- The caller contract of WRITE.FM (R122): the flags, then v[5], then v[6] and v[7]. -/
abbrev FrameMarkingFits (P : Params) (start fin ind disc bs tid lid tl0 : Word) : Prop :=
  (start.toNat ≤ 1 ∧ fin.toNat ≤ 1 ∧ ind.toNat ≤ 1 ∧ disc.toNat ≤ 1 ∧ bs.toNat ≤ 1) ∧
    (tid.toNat ≤ 7 ∨ tid.toNat = P.noTemporalIdx.toNat) ∧ lid.toNat ≤ 0xFF ∧ tl0.toNat ≤ 0xFF

/-- Two checks with the same stop are one check of both. -/
theorem contract_bind_contract_bind {α : Type} {c d : Prop} [Decidable c] [Decidable d] {f : Unit → Except Stop α} :
    (contract c >>= fun _ => contract d >>= f) = (contract (c ∧ d) >>= f) := by
  by_cases hc : c
  · rw [contract_bind_of hc]
    simp only [hc, true_and]
  · rw [contract_bind_of_not hc, contract_bind_of_not fun h => hc h.1]

theorem writeFmBody_of_values {start fin ind disc bs tid lid tl0 : Word}
    (hv : p.v = #v[some start, some fin, some ind, some disc, some bs, some tid, some lid, some tl0]) :
    writeFmBody P p = (do
      contract (FrameMarkingFits P start fin ind disc bs tid lid tl0)
      p.emit (frameMarkingSize P bs tid lid tl0) (frameMarkingImage P start fin ind disc bs tid lid tl0)) := by
  rw [writeFmBody]
  iterate 8 rw [readV_bind_of_some (by rw [hv]; rfl)]
  rw [contract_bind_contract_bind, contract_bind_contract_bind, Port.emit, frameMarkingImage]
  simp only [FrameMarkingFits, eq_setWidth_byte_iff, and_assoc]
  split <;> rfl

/-- The operands of VP9LID are checked together (R125). -/
theorem vp9lidBody_of_values {sidx tus ipp : Word} (hsidx : p.v.get 0 = some sidx) (htus : p.v.get 1 = some tus)
    (hipp : p.v.get 2 = some ipp) :
    vp9lidBody P p = (do
      contract (sidx.toNat ≤ 0xFF ∧ tus.toNat ≤ 1 ∧ ipp.toNat ≤ 1)
      return p.setRES
        ((Config.vp9LayerIdMap (sidx.setWidth 8) (tus.setWidth 1) (ipp.setWidth 1)).setWidth 32)) := by
  rw [vp9lidBody, readV_bind_of_some hsidx, readV_bind_of_some htus, readV_bind_of_some hipp]

end

/-! ## FrameMarking and VP9LID: the statements -/

/-- Settles O21: each register is a quotient or a remainder of the byte that its bits are in (R120). -/
theorem parseFmReadsOneOrThreeBytes : Obligations.ParseFmReadsOneOrThreeBytes := by
  unfold Obligations.ParseFmReadsOneOrThreeBytes
  refine fun s p hs => ⟨fun b0 hib => ?_, fun b0 b1 b2 hib => ?_, fun h1 h3 => ?_⟩
  · exact endsOk_of_body (exec_parseFm s) hs (parseFmBody_of_byte hib)
  · exact endsOk_of_body (exec_parseFm s) hs (parseFmBody_of_bytes hib)
  · exact endsFail_of_body (c := .malformedLength) (exec_parseFm s) hs (parseFmBody_of_length h1 h3)

/-- Settles O32: the three checks are one, and the size and the image follow the same predicate (R119). -/
theorem writeFmEmitsOneOrThreeBytes : Obligations.WriteFmEmitsOneOrThreeBytes := by
  unfold Obligations.WriteFmEmitsOneOrThreeBytes
  refine fun s p hs => ⟨fun ⟨j, hj⟩ => ?_, fun st e i d bs tid lid tl0 hv => ?_⟩
  · exact endsFault_of_body (k := .unwrittenRead) (exec_writeFm s) hs (writeFmBody_of_none hj)
  have hbody := writeFmBody_of_values (P := s.params) hv
  simp only [List.mem_cons, List.not_mem_nil, or_false, exists_eq_or_imp, exists_eq_left, forall_eq_or_imp, forall_eq]
  refine ⟨fun hbad => ?_, fun hflags htid hlid htl0 isScalable hiff => ?_⟩
  · exact endsFault_of_body (k := .contractViolation) (exec_writeFm s) hs
      (hbody.trans (contract_bind_of_not (by omega)))
  have hends := endsBySize_of_body (exec_writeFm s) hs (hbody.trans (contract_bind_of ⟨hflags, htid, hlid, htl0⟩))
  obtain ⟨-, he, hi, hd, hbs⟩ := hflags
  rw [← scalable_iff] at hiff
  refine ⟨fun hscalable => ?_, fun hnot => ?_⟩
  · have h := hiff.mp hscalable
    rw [frameMarkingSize_of_scalable h, frameMarkingImage_of_scalable he hi hd hbs h] at hends
    rw [← BitVec.setWidth_eq_extractLsb' (by decide), ← BitVec.setWidth_eq_extractLsb' (by decide)]
    exact hends
  · have h := mt hiff.mpr hnot
    rw [frameMarkingSize_of_not h, frameMarkingImage_of_not he hi hd h] at hends
    exact hends

/-- Settles O35: the size is that of R119, and only the four registers of the predicate are read (R123). -/
theorem vsizeFmReportsOneOrThree : Obligations.VsizeFmReportsOneOrThree := by
  unfold Obligations.VsizeFmReportsOneOrThree
  refine fun s p hs => ⟨fun ⟨j, hle, hj⟩ => ?_, fun bs tid lid tl0 hbs htid hlid htl0 isScalable hiff => ?_⟩
  · exact endsFault_of_body (k := .unwrittenRead) (exec_vsizeFm s) hs (vsizeFmBody_of_none hle hj)
  have hends := endsOk_of_body (exec_vsizeFm s) hs (vsizeFmBody_of_values hbs htid hlid htl0)
  rw [← scalable_iff] at hiff
  refine ⟨fun hscalable => ?_, fun hnot => ?_⟩
  · rw [frameMarkingSize_of_scalable (hiff.mp hscalable)] at hends
    exact hends
  · rw [frameMarkingSize_of_not (mt hiff.mpr hnot)] at hends
    exact hends

/-- Settles O36: all three operands are read before their ranges are checked, and the map is applied to them as they
are (R125). -/
theorem vp9lidWritesTheMappedLayer : Obligations.Vp9lidWritesTheMappedLayer := by
  unfold Obligations.Vp9lidWritesTheMappedLayer
  refine fun s p hs => ⟨fun hnone => ?_, fun sidx tus ipp hsidx htus hipp => ?_⟩
  · refine endsFault_of_body (k := .unwrittenRead) (exec_vp9lid s) hs ?_
    exact readV_bind_unwritten fun sidx hsidx => readV_bind_unwritten fun tus htus =>
      readV_bind_unwritten fun ipp hipp => by simp [hsidx, htus, hipp] at hnone
  have hbody := vp9lidBody_of_values (P := s.params) hsidx htus hipp
  refine ⟨fun hbad => ?_, fun hle0 hle1 hle2 => ?_⟩
  · exact endsFault_of_body (k := .contractViolation) (exec_vp9lid s) hs
      (hbody.trans (contract_bind_of_not (by omega)))
  · rw [BitVec.ofNat_toNat, ← BitVec.setWidth_eq_extractLsb' (by decide), ← BitVec.setWidth_eq_extractLsb' (by decide),
      ← BitVec.setWidth_eq_extractLsb' (by decide)]
    exact endsOk_of_body (exec_vp9lid s) hs (hbody.trans (contract_bind_of ⟨hle0, hle1, hle2⟩))

/-! ## FrameMarking: the round trip (R124) -/

/-- The flags of a byte 0 that holds them above its low four bits. -/
theorem frameMarkingRegisters_of_flags {b : Byte} {start fin ind disc bs tid lid tl0 : Word} {low : Nat}
    (hflags : start.toNat ≤ 1 ∧ fin.toNat ≤ 1 ∧ ind.toNat ≤ 1 ∧ disc.toNat ≤ 1)
    (hb : b.toNat = flagsNat start fin ind disc + low) (hlow : low < 16) :
    frameMarkingRegisters b bs tid lid tl0 =
      #v[some start, some fin, some ind, some disc, some bs, some tid, some lid, some tl0] := by
  unfold flagsNat at hb
  have h0 : b.toNat / 128 = start.toNat := by omega
  have h1 : b.toNat / 64 % 2 = fin.toNat := by omega
  have h2 : b.toNat / 32 % 2 = ind.toNat := by omega
  have h3 : b.toNat / 16 % 2 = disc.toNat := by omega
  rw [frameMarkingRegisters, h0, h1, h2, h3]
  simp only [zext32_toNat]

theorem zext32_setWidth_of_le {x : Word} (h : x.toNat ≤ 0xFF) : zext32 (x.setWidth 8).toNat = x := by
  rw [zext32, BitVec.ofNat_toNat, setWidth_setWidth_of_lt (by omega)]

/-- From the bytes that WRITE.FM answers with, PARSE.FM answers the value with v[5] mod 8 if it is scalable, and the
flags alone if not (R124). -/
theorem parseFmBody_of_write {P : Params} {p q p' : Port} {start fin ind disc bs tid lid tl0 : Word}
    (hv : p.v = #v[some start, some fin, some ind, some disc, some bs, some tid, some lid, some tl0])
    (hwrite : writeFmBody P p = .ok q) (hib : p'.ib = q.ob) :
    parseFmBody P p' = .ok { p' with
      v := if scalable P bs tid lid tl0 then
          #v[some start, some fin, some ind, some disc, some bs, some (zext32 (tid.toNat % 8)), some lid, some tl0]
        else #v[some start, some fin, some ind, some disc, some 0#32, some 0#32, some 0#32, some 0#32] } := by
  rw [writeFmBody_of_values hv] at hwrite
  obtain ⟨⟨⟩, hfits, hemit⟩ := bind_eq_ok.mp hwrite
  obtain ⟨⟨hstart, hfin, hind, hdisc, hbs⟩, -, hlid, htl0⟩ := contract_eq_ok.mp hfits
  obtain ⟨⟨⟩, -, hq⟩ := bind_eq_ok.mp hemit
  obtain rfl := Except.ok.inj hq
  have hsum : flagsNat start fin ind disc ≤ 240 := by unfold flagsNat; omega
  rw [Port.setOB_ob] at hib
  by_cases h : scalable P bs tid lid tl0 = true
  · rw [frameMarkingImage_of_scalable hfin hind hdisc hbs h] at hib
    have hbyte : (BitVec.ofNat 8 (flagsNat start fin ind disc + bs.toNat * 8 + tid.toNat % 8)).toNat =
        flagsNat start fin ind disc + (bs.toNat * 8 + tid.toNat % 8) := by
      rw [BitVec.toNat_ofNat, Nat.add_assoc, Nat.mod_eq_of_lt (by omega)]
    have hbit : (flagsNat start fin ind disc + (bs.toNat * 8 + tid.toNat % 8)) / 8 % 2 = bs.toNat := by
      unfold flagsNat; omega
    have hlow : (flagsNat start fin ind disc + (bs.toNat * 8 + tid.toNat % 8)) % 8 = tid.toNat % 8 := by
      unfold flagsNat; omega
    rw [parseFmBody_of_bytes hib, frameMarkingRegisters_of_flags ⟨hstart, hfin, hind, hdisc⟩ hbyte (by omega), hbyte,
      hbit, hlow, zext32_toNat, zext32_setWidth_of_le hlid, zext32_setWidth_of_le htl0, if_pos h]
  · rw [frameMarkingImage_of_not hfin hind hdisc h] at hib
    have hbyte : (BitVec.ofNat 8 (flagsNat start fin ind disc)).toNat = flagsNat start fin ind disc + 0 := by
      rw [BitVec.toNat_ofNat, Nat.mod_eq_of_lt (by omega), Nat.add_zero]
    rw [parseFmBody_of_byte hib, frameMarkingRegisters_of_flags ⟨hstart, hfin, hind, hdisc⟩ hbyte (by decide), if_neg h]

/-- Settles O47: the bytes that WRITE.FM wrote are parsed by `parseFmBody_of_write`. -/
theorem roundTripOfFrameMarking : Obligations.RoundTripOfFrameMarking := by
  unfold Obligations.RoundTripOfFrameMarking
  intro s t p q other st e i d bs tid lid tl0 hs hv hexec ht hq
  exact exec_parse_of_write (exec_writeFm s) exec_parseFm (SizedWrite.fm.never_fails _ _) hs hexec ht hq rfl
    fun q' hwrite hib => ⟨_, parseFmBody_of_write hv hwrite hib, rfl⟩

end Sys2Proof.Machine

/-! The packet wrapper (spec/42_packet_wrapper.md). Each pseudocode is followed once, up to its question to the engine;
what the rest of the rule makes of each answer is said by `SetkeyCall`, `EncryptCall` and `DecryptCall`. The endings of
R131 to R135 and the round trip of R137 are read off that. -/

namespace Sys2Proof.Machine

/-! ## Checks and reads at the start of a pseudocode -/

section
variable {α β : Type}

theorem require_bind_of {c : Prop} [Decidable c] {stop : Stop} {f : Unit → Except Stop α} (h : c) :
    (require c stop >>= f) = f () := by
  rw [require_of h, ok_bind]

theorem require_bind_of_not {c : Prop} [Decidable c] {stop : Stop} {f : Unit → Except Stop α} (h : ¬ c) :
    (require c stop >>= f) = .error stop := by
  rw [require_of_not h, error_bind]

theorem held_bind_of_some {r : Option β} {x : β} {f : β → Except Stop α} (h : r = some x) :
    (held r >>= f) = f x := by
  rw [h, held_some, ok_bind]

/-- A read stops with UnwrittenRead, if not by itself, then where the rest does. -/
theorem held_bind_unwritten {r : Option β} {f : β → Except Stop α}
    (h : ∀ x, r = some x → f x = .error (.raise .unwrittenRead)) :
    (held r >>= f) = .error (.raise .unwrittenRead) := by
  cases hr : r with
  | none => rfl
  | some x => exact h x hr

end

/-! ## From the pseudocode to the end of a command that asks the engine (R19, R149) -/

section
variable {i : Instr} {d : Direction} {body : Params → KeyState → Port → Except Stop EngineCall} {s t : State}
  {p q : Port} {call : EngineCall}

theorem endsFail_of_engineBody {c : StatusCode} (hexec : exec i s = runEngine i d body s) (hs : s.Ready p)
    (hb : body s.params (s.key d) p = .error (.fail c)) : EndsFail i s p c.code :=
  hexec.trans (runEngine_of_fail hs.1 hs.2 hb)

theorem endsFault_of_engineBody {k : FaultKind} (hexec : exec i s = runEngine i d body s) (hs : s.Ready p)
    (hb : body s.params (s.key d) p = .error (.raise k)) : EndsFault i s k.register :=
  hexec.trans (runEngine_of_raise hs.1 hs.2 hb)

theorem exec_of_engineFail {c : StatusCode} (hexec : exec i s = runEngine i d body s) (hs : s.Ready p)
    (hb : body s.params (s.key d) p = .ok call) (hf : call.finish s.draw = .error (.fail c)) :
    exec i s = .next ((s.ask call.question).setPort { p with status := some c.code }) :=
  hexec.trans (runEngine_of_refusal hs.1 hs.2 hb hf)

theorem exec_of_engineRaise {k : FaultKind} (hexec : exec i s = runEngine i d body s) (hs : s.Ready p)
    (hb : body s.params (s.key d) p = .ok call) (hf : call.finish s.draw = .error (.raise k)) :
    exec i s = .next { s.ask call.question with fault := k.register, fcmd := some (encode i) } := by
  rw [hexec, runEngine_of_refusal hs.1 hs.2 hb hf, State.stopped_raise,
    State.raiseFault_of_running (s := s.ask call.question) hs.1]

theorem exec_of_engineAnswer {k : KeyState} (hexec : exec i s = runEngine i d body s) (hs : s.Ready p)
    (hb : body s.params (s.key d) p = .ok call) (hf : call.finish s.draw = .ok (k, q)) :
    exec i s = .next (((s.ask call.question).setKey d k).setPort { q with status := some 0#8 }) :=
  hexec.trans (runEngine_of_answer hs.1 hs.2 hb hf)

theorem StatusCode.eq_ok_of_code_eq_zero {c : StatusCode} (h : c.code = 0#8) : c = .ok := by
  cases c with
  | ok => rfl
  | _ => exact absurd h (by decide)

/-- A command that asks the engine, fails with no status OK, and leaves the block running with STATUS OK, asked and went
on with the answer. -/
theorem runEngine_answered (hp : s.port? = some p)
    (hfail : Yields (· ≠ .fail .ok) (EngineCall.StopsIn (· ≠ .fail .ok)) (body s.params (s.key d) p))
    (h : runEngine i d body s = .next t) (ht : ¬ t.halted) (hq : t.port? = some q) (hok : q.status = some 0#8) :
    ∃ call k p', body s.params (s.key d) p = .ok call ∧ call.finish s.draw = .ok (k, p') ∧
      t = ((s.ask call.question).setKey d k).setPort (p'.setStatus .ok) := by
  have hfailed {c : StatusCode} {s' : State} (hp' : s'.port? = some p) (heq : t = s'.setPort (p.setStatus c)) :
      c = .ok := by
    obtain rfl : p.setStatus c = q := Option.some.inj ((State.setPort_port? _ hp').symm.trans (heq ▸ hq))
    exact StatusCode.eq_ok_of_code_eq_zero (Option.some.inj hok)
  obtain ⟨-, p', hp', hcases⟩ := runEngine_next h
  obtain rfl : p = p' := Option.some.inj (hp.symm.trans hp')
  rcases hcases with ⟨c, hb, heq⟩ | ⟨f, -, rfl⟩ |
    ⟨call, hb, ⟨k, p', hf, rfl⟩ | ⟨c, hf, heq⟩ | ⟨f, -, rfl⟩⟩
  · obtain rfl := hfailed hp heq
    rw [hb] at hfail; exact absurd rfl hfail
  · exact absurd (State.raiseFault_halted ..) ht
  · exact ⟨call, k, p', hb, hf, rfl⟩
  · obtain rfl := hfailed (s' := s.ask call.question) hp heq
    rw [hb] at hfail
    have hstop := hfail s.draw
    rw [hf] at hstop; exact absurd rfl hstop
  · exact absurd (State.raiseFault_halted ..) ht

end

/-! ## SETKEY (R131, R132) -/

section
variable {P : Params} {x : Word} {row : Suite}

theorem Suite.tag_setWidth_eq_iff : row.tag.setWidth 32 = x ↔ row.tag.toNat = x.toNat := by
  rw [← BitVec.toNat_inj, BitVec.toNat_setWidth_of_le (by decide)]

theorem suiteOf_eq_none (h : ∀ row ∈ P.suites, row.tag.toNat ≠ x.toNat) : P.suiteOf x = none := by
  simpa [Params.suiteOf, Suite.tag_setWidth_eq_iff] using h

/-- With no tag twice in the table, the row with the tag of v[0] is the one that is found (R129). -/
theorem suiteOf_eq_some (hnodup : (P.suites.map Suite.tag).Nodup) (hrow : row ∈ P.suites)
    (htag : row.tag.toNat = x.toNat) : P.suiteOf x = some row := by
  cases hfound : P.suiteOf x with
  | none =>
    have hnone := List.find?_eq_none.mp hfound row hrow
    simp [Suite.tag_setWidth_eq_iff, htag] at hnone
  | some row' =>
    have htag' : row'.tag.setWidth 32 = x := by simpa using List.find?_some hfound
    have hsame : row'.tag = row.tag :=
      BitVec.toNat_inj.mp ((Suite.tag_setWidth_eq_iff.mp htag').trans htag.symm)
    rw [List.inj_on_of_nodup_map hnodup (List.mem_of_find?_eq_some hfound) hrow hsame]

end

/-- What SETKEY asks once its checks have passed, and what it makes of each answer (R131). -/
structure SetkeyCall (d : Direction) (P : Params) (p : Port) (row : Suite) (call : EngineCall) : Prop where
  question : call.question = .create row.tag d p.ib P.replayWindow P.allowRepeat
  refused : ∀ {draw}, draw.create = none → call.finish draw = .error (.fail .engineFailure)
  answered : ∀ {draw session}, draw.create = some session →
    call.finish draw = .ok (⟨true, some row.tag, some row.tagLen, some session⟩, p)

section
variable {d : Direction} {P : Params} {k : KeyState} {p : Port} {x : Word} {row : Suite}

theorem setkeyBody_of_keyed (hks : k.ks = true) : setkeyBody d P k p = .error (.fail .sessionAlreadyKeyed) :=
  require_bind_of_not (by simp [hks])

theorem setkeyBody_of_none (hks : k.ks = false) (hv : p.v.get 0 = none) :
    setkeyBody d P k p = .error (.raise .unwrittenRead) :=
  (require_bind_of hks).trans (readV_bind_unwritten fun x hx => by simp [hv] at hx)

theorem setkeyBody_of_noSuite (hks : k.ks = false) (hv : p.v.get 0 = some x) (hsuite : P.suiteOf x = none) :
    setkeyBody d P k p = .error (.fail .unsupportedCipherSuite) := by
  rw [setkeyBody, require_bind_of hks, readV_bind_of_some hv, hsuite]; rfl

theorem setkeyBody_of_length_ne (hks : k.ks = false) (hv : p.v.get 0 = some x) (hsuite : P.suiteOf x = some row)
    (hne : p.ib.length ≠ row.keySaltLen) : setkeyBody d P k p = .error (.fail .invalidKeyLength) := by
  rw [setkeyBody, require_bind_of hks, readV_bind_of_some hv, hsuite]
  exact require_bind_of_not hne

theorem setkeyBody_of_length (hks : k.ks = false) (hv : p.v.get 0 = some x) (hsuite : P.suiteOf x = some row)
    (hlength : p.ib.length = row.keySaltLen) :
    ∃ call, setkeyBody d P k p = .ok call ∧ SetkeyCall d P p row call := by
  rw [setkeyBody, require_bind_of hks, readV_bind_of_some hv, hsuite]
  refine ⟨_, require_bind_of hlength, rfl, fun h => ?_, fun h => ?_⟩
  · simp only [h]
  · simp only [h]

end

theorem exec_setkey (s : State) : ∀ r ∈ [(Instr.setkeyOut, Direction.out), (Instr.setkeyIn, Direction.inn)],
    exec r.1 s = runEngine r.1 r.2 (setkeyBody r.2) s := by
  simp only [List.forall_mem_cons]
  exact ⟨exec_setkeyOut s, exec_setkeyIn s, nofun⟩

/-- Settles O37: both directions run the same pseudocode, and no tag stands twice in the table. -/
theorem setkeyKeysOneDirection : Obligations.SetkeyKeysOneDirection := by
  unfold Obligations.SetkeyKeysOneDirection
  intro r hr s p hs hnodup
  have hexec := exec_setkey s r hr
  refine ⟨fun hks => ?_, fun hks => ⟨fun hnone => ?_, fun x hx => ⟨fun hother => ?_, fun row hrow htag => ?_⟩⟩⟩
  · exact endsFail_of_engineBody (c := .sessionAlreadyKeyed) hexec hs (setkeyBody_of_keyed hks)
  · exact endsFault_of_engineBody (k := .unwrittenRead) hexec hs (setkeyBody_of_none hks hnone)
  · exact endsFail_of_engineBody (c := .unsupportedCipherSuite) hexec hs
      (setkeyBody_of_noSuite hks hx (suiteOf_eq_none hother))
  have hsuite := suiteOf_eq_some hnodup hrow htag
  refine ⟨fun hne => ?_, fun hlength question hquestion => ?_⟩
  · exact endsFail_of_engineBody (c := .invalidKeyLength) hexec hs (setkeyBody_of_length_ne hks hx hsuite hne)
  obtain ⟨call, hb, hcall⟩ := setkeyBody_of_length (d := r.2) hks hx hsuite hlength
  rw [hquestion, ← hcall.question]
  exact ⟨fun h => exec_of_engineFail (c := .engineFailure) hexec hs hb (hcall.refused h),
    fun session h => exec_of_engineAnswer hexec hs hb (hcall.answered h)⟩

/-! ## ENCRYPT (R133) -/

/-- The OHB byte by byte (R126). -/
theorem ohb_eq (m : BitVec 1) (pt : BitVec 7) (seq : BitVec 16) (ts ssrc : BitVec 32) :
    ohb m pt seq ts ssrc = [BitVec.ofNat 8 (m.toNat * 128 + pt.toNat),
      seq.extractLsb' 8 8, seq.extractLsb' 0 8,
      ts.extractLsb' 24 8, ts.extractLsb' 16 8, ts.extractLsb' 8 8, ts.extractLsb' 0 8,
      ssrc.extractLsb' 24 8, ssrc.extractLsb' 16 8, ssrc.extractLsb' 8 8, ssrc.extractLsb' 0 8] := by
  have hfirst : m ++ pt = BitVec.ofNat 8 (m.toNat * 128 + pt.toNat) := by
    apply BitVec.eq_of_toNat_eq
    rw [BitVec.toNat_append, BitVec.toNat_ofNat, ← Nat.shiftLeft_add_eq_or_of_lt pt.isLt, Nat.shiftLeft_eq]
    omega
  have htwo (y : BitVec 16) : beBytes 2 y.toNat = [y.extractLsb' 8 8, y.extractLsb' 0 8] := by
    simp [beBytes, ← BitVec.toNat_inj, Nat.shiftRight_eq_div_pow]
  have hfour (y : BitVec 32) : beBytes 4 y.toNat =
      [y.extractLsb' 24 8, y.extractLsb' 16 8, y.extractLsb' 8 8, y.extractLsb' 0 8] := by
    simp [beBytes, ← BitVec.toNat_inj, Nat.shiftRight_eq_div_pow]
  rw [ohb, hfirst, htwo, hfour, hfour]
  rfl

theorem ohb_length (m : BitVec 1) (pt : BitVec 7) (seq : BitVec 16) (ts ssrc : BitVec 32) :
    (ohb m pt seq ts ssrc).length = 11 := by
  simp [ohb]

/-- What ENCRYPT asks about the buffer `buf` once its checks have passed, and what it makes of each answer (R133). -/
structure EncryptCall (k : KeyState) (p : Port) (tagLen : BitVec 8) (session : Session) (buf : List Byte)
    (call : EngineCall) : Prop where
  question : call.question = .protect session buf
  refused : ∀ {draw}, draw.protect = none → call.finish draw = .error (.fail .engineFailure)
  violated : ∀ {draw session' out}, draw.protect = some (session', out) → out.length ≠ buf.length + tagLen.toNat →
    call.finish draw = .error (.raise .engineContractViolation)
  answered : ∀ {draw session' out}, draw.protect = some (session', out) → out.length = buf.length + tagLen.toNat →
    call.finish draw = .ok ({ k with sess := some session' }, p.setPAY out.tail)

section
variable {P : Params} {k : KeyState} {p : Port} {tagLen : BitVec 8} {session : Session} {m : BitVec 1} {pt : BitVec 7}
  {seq : BitVec 16} {ts ssrc cap : BitVec 32} {pay : List Byte}

theorem encryptBody_of_not_keyed (hks : k.ks = false) : encryptBody P k p = .error (.fail .sessionNotKeyed) :=
  require_bind_of_not (by simp [hks])

/-- The payload and the capacity are read before the capacity is checked (log entry 16). -/
theorem encryptBody_of_noPayload (hks : k.ks = true) (htag : k.tagLen = some tagLen)
    (hnone : p.pkt.pay = none ∨ p.pkt.cap = none) : encryptBody P k p = .error (.raise .unwrittenRead) := by
  rw [encryptBody, require_bind_of hks]
  refine held_bind_unwritten fun pay hpay => (held_bind_of_some htag).trans ?_
  exact held_bind_unwritten fun cap hcap => by simp [hpay, hcap] at hnone

theorem encryptBody_of_excess (hks : k.ks = true) (htag : k.tagLen = some tagLen) (hpay : p.pkt.pay = some pay)
    (hcap : p.pkt.cap = some cap) (hexcess : cap.toNat < P.ohbSize + pay.length + tagLen.toNat) :
    encryptBody P k p = .error (.fail .capacityExceeded) := by
  rw [encryptBody, require_bind_of hks, held_bind_of_some hpay, held_bind_of_some htag, held_bind_of_some hcap]
  exact require_bind_of_not (by omega)

/-- The header fields are read after the capacity is checked (log entry 16). -/
theorem encryptBody_of_noHeader (hks : k.ks = true) (htag : k.tagLen = some tagLen) (hpay : p.pkt.pay = some pay)
    (hcap : p.pkt.cap = some cap) (hfits : P.ohbSize + pay.length + tagLen.toNat ≤ cap.toNat)
    (hnone : p.pkt.m = none ∨ p.pkt.pt = none ∨ p.pkt.seq = none ∨ p.pkt.ts = none ∨ p.pkt.ssrc = none) :
    encryptBody P k p = .error (.raise .unwrittenRead) := by
  rw [encryptBody, require_bind_of hks, held_bind_of_some hpay, held_bind_of_some htag, held_bind_of_some hcap,
    require_bind_of hfits]
  exact held_bind_unwritten fun m hm => held_bind_unwritten fun pt hpt => held_bind_unwritten fun seq hseq =>
    held_bind_unwritten fun ts hts => held_bind_unwritten fun ssrc hssrc => by
      simp [hm, hpt, hseq, hts, hssrc] at hnone

theorem encryptBody_of_values (hks : k.ks = true) (htag : k.tagLen = some tagLen) (hsess : k.sess = some session)
    (hpkt : p.pkt = ⟨some m, some pt, some seq, some ts, some ssrc, some pay, some cap⟩)
    (hfits : P.ohbSize + pay.length + tagLen.toNat ≤ cap.toNat) :
    ∃ call, encryptBody P k p = .ok call ∧
      EncryptCall k p tagLen session (P.versionByte :: ohb m pt seq ts ssrc ++ pay) call := by
  rw [encryptBody, require_bind_of hks, held_bind_of_some (congrArg PacketView.pay hpkt), held_bind_of_some htag,
    held_bind_of_some (congrArg PacketView.cap hpkt), require_bind_of hfits,
    held_bind_of_some (congrArg PacketView.m hpkt), held_bind_of_some (congrArg PacketView.pt hpkt),
    held_bind_of_some (congrArg PacketView.seq hpkt), held_bind_of_some (congrArg PacketView.ts hpkt),
    held_bind_of_some (congrArg PacketView.ssrc hpkt), held_bind_of_some hsess]
  refine ⟨_, rfl, rfl, fun h => ?_, fun h hne => ?_, fun h heq => ?_⟩
  · simp only [h]
  · simp only [h]; exact require_bind_of_not hne
  · simp only [h, ← List.drop_one]; exact require_bind_of heq

/-- ENCRYPT comes to its question only with every value that it reads. -/
theorem encryptBody_eq_ok {call : EngineCall} (h : encryptBody P k p = .ok call) :
    ∃ tagLen session m pt seq ts ssrc pay, k.tagLen = some tagLen ∧ k.sess = some session ∧ p.pkt.pay = some pay ∧
      EncryptCall k p tagLen session (P.versionByte :: ohb m pt seq ts ssrc ++ pay) call := by
  have hvalues := h
  simp only [encryptBody, bind_eq_ok, require_eq_ok, held_eq_ok] at hvalues
  obtain ⟨⟨⟩, hks, pay, hpay, tagLen, htag, cap, hcap, ⟨⟩, hfits, m, hm, pt, hpt, seq, hseq, ts, hts, ssrc, hssrc,
    session, hsess, -⟩ := hvalues
  have hpkt : p.pkt = ⟨some m, some pt, some seq, some ts, some ssrc, some pay, some cap⟩ := by
    rw [← hm, ← hpt, ← hseq, ← hts, ← hssrc, ← hpay, ← hcap]
  obtain ⟨call', hcall', hasks⟩ := encryptBody_of_values hks htag hsess hpkt hfits
  obtain rfl := Except.ok.inj (h.symm.trans hcall')
  exact ⟨tagLen, session, m, pt, seq, ts, ssrc, pay, htag, hsess, hpay, hasks⟩

/-- ENCRYPT goes on only with an answer of the right length, whose bytes without the first become PKT.PAY. -/
theorem EncryptCall.of_finish_eq_ok {call : EngineCall} {buf out : List Byte} {draw : EngineDraw} {session' : Session}
    {k' : KeyState} {q : Port} (hcall : EncryptCall k p tagLen session buf call)
    (hdraw : draw.protect = some (session', out)) (hf : call.finish draw = .ok (k', q)) :
    out.length = buf.length + tagLen.toNat ∧ k' = { k with sess := some session' } ∧ q = p.setPAY out.tail := by
  by_cases hlength : out.length = buf.length + tagLen.toNat
  · have hpair := Except.ok.inj (hf.symm.trans (hcall.answered hdraw hlength))
    exact ⟨hlength, congrArg Prod.fst hpair, congrArg Prod.snd hpair⟩
  · rw [hcall.violated hdraw hlength] at hf; cases hf

end

/-- Settles O38: the checks in the order of the pseudocode, then the answers by `EncryptCall`. -/
theorem encryptWrapsThePayload : Obligations.EncryptWrapsThePayload := by
  unfold Obligations.EncryptWrapsThePayload
  intro s p hs
  have hexec := exec_encrypt s
  refine ⟨fun hks => ?_, fun tagLen session hks htag hsess => ⟨fun hnone => ?_, fun pay cap hpay hcap hfits hnone => ?_,
    fun m pt seq ts ssrc pay cap hpkt => ⟨fun hexcess => ?_, fun hfits buf hbuf => ?_⟩⟩⟩
  · exact endsFail_of_engineBody (c := .sessionNotKeyed) hexec hs (encryptBody_of_not_keyed hks)
  · exact endsFault_of_engineBody (k := .unwrittenRead) hexec hs (encryptBody_of_noPayload hks htag hnone)
  · exact endsFault_of_engineBody (k := .unwrittenRead) hexec hs
      (encryptBody_of_noHeader hks htag hpay hcap hfits hnone)
  · exact endsFail_of_engineBody (c := .capacityExceeded) hexec hs
      (encryptBody_of_excess hks htag (by rw [hpkt]) (by rw [hpkt]) hexcess)
  obtain ⟨call, hb, hcall⟩ := encryptBody_of_values hks htag hsess hpkt hfits
  rw [ohb_eq, show _ :: _ ++ pay = buf from hbuf.symm] at hcall
  rw [← hcall.question]
  refine ⟨fun h => ?_, fun session' out h => ⟨fun hne => ?_, fun heq => ?_⟩⟩
  · exact exec_of_engineFail (c := .engineFailure) hexec hs hb (hcall.refused h)
  · exact exec_of_engineRaise (k := .engineContractViolation) hexec hs hb (hcall.violated h hne)
  · exact exec_of_engineAnswer hexec hs hb (hcall.answered h heq)

/-! ## DECRYPT (R134) -/

/-- What DECRYPT asks once its checks have passed, and what it makes of each answer (R134). -/
structure DecryptCall (P : Params) (k : KeyState) (p : Port) (session : Session) (call : EngineCall) : Prop where
  question : call.question = .unprotect session (P.versionByte :: p.ib)
  authFail : ∀ {draw}, draw.unprotect = .authFail → call.finish draw = .error (.fail .authenticationFailure)
  replayFail : ∀ {draw}, draw.unprotect = .replayFail → call.finish draw = .error (.fail .replayFailure)
  violated : ∀ {draw session' out}, draw.unprotect = .done session' out →
    ¬ (1 + P.ohbSize ≤ out.length ∧ out.length ≤ p.ib.length + 1) →
    call.finish draw = .error (.raise .engineContractViolation)
  answered : ∀ {draw session' out}, draw.unprotect = .done session' out →
    1 + P.ohbSize ≤ out.length ∧ out.length ≤ p.ib.length + 1 →
    call.finish draw = .ok ({ k with sess := some session' }, p.setIB (out.drop (1 + P.ohbSize)))

section
variable {P : Params} {k : KeyState} {p : Port} {tagLen : BitVec 8} {session : Session}

theorem decryptBody_of_not_keyed (hks : k.ks = false) : decryptBody P k p = .error (.fail .sessionNotKeyed) :=
  require_bind_of_not (by simp [hks])

theorem decryptBody_of_short (hks : k.ks = true) (htag : k.tagLen = some tagLen)
    (hshort : p.ib.length < P.ohbSize + tagLen.toNat) : decryptBody P k p = .error (.fail .malformedLength) := by
  rw [decryptBody, require_bind_of hks, held_bind_of_some htag]
  exact require_bind_of_not (by omega)

theorem decryptBody_of_values (hks : k.ks = true) (htag : k.tagLen = some tagLen) (hsess : k.sess = some session)
    (hlength : P.ohbSize + tagLen.toNat ≤ p.ib.length) :
    ∃ call, decryptBody P k p = .ok call ∧ DecryptCall P k p session call := by
  rw [decryptBody, require_bind_of hks, held_bind_of_some htag, require_bind_of hlength, held_bind_of_some hsess]
  refine ⟨_, rfl, rfl, fun h => ?_, fun h => ?_, fun h hbad => ?_, fun h hgood => ?_⟩
  · simp only [h]
  · simp only [h]
  · simp only [h]; exact require_bind_of_not hbad
  · simp only [h]; exact require_bind_of hgood

end

/-- Settles O39: the checks in the order of the pseudocode, then the answers by `DecryptCall`. -/
theorem decryptUnwrapsThePayload : Obligations.DecryptUnwrapsThePayload := by
  unfold Obligations.DecryptUnwrapsThePayload
  intro s p hs
  have hexec := exec_decrypt s
  refine ⟨fun hks => ?_, fun tagLen session hks htag hsess => ⟨fun hshort => ?_, fun hlength asked hasked => ?_⟩⟩
  · exact endsFail_of_engineBody (c := .sessionNotKeyed) hexec hs (decryptBody_of_not_keyed hks)
  · exact endsFail_of_engineBody (c := .malformedLength) hexec hs (decryptBody_of_short hks htag hshort)
  obtain ⟨call, hb, hcall⟩ := decryptBody_of_values hks htag hsess hlength
  rw [← hcall.question] at hasked
  subst hasked
  refine ⟨fun h => ?_, fun h => ?_, fun session' out h => ⟨fun hbad => ?_, fun hlow hhigh => ?_⟩⟩
  · exact exec_of_engineFail (c := .authenticationFailure) hexec hs hb (hcall.authFail h)
  · exact exec_of_engineFail (c := .replayFailure) hexec hs hb (hcall.replayFail h)
  · exact exec_of_engineRaise (k := .engineContractViolation) hexec hs hb (hcall.violated h (by omega))
  · exact exec_of_engineAnswer hexec hs hb (hcall.answered h ⟨hlow, hhigh⟩)

/-! ## OVERHEAD (R135) -/

section
variable {P : Params} {k : KeyState} {p : Port} {tagLen : BitVec 8}

theorem overheadBody_of_not_keyed (hks : k.ks = false) : overheadBody k P p = .ok (p.setRES 0#32) := by
  rw [overheadBody, if_neg (by simp [hks])]

theorem overheadBody_of_keyed (hks : k.ks = true) (htag : k.tagLen = some tagLen) :
    overheadBody k P p = .ok (p.setRES (zext32 (P.ohbSize + tagLen.toNat))) := by
  rw [overheadBody, if_pos hks, held_bind_of_some htag]; rfl

end

/-- Settles O40: both values of KS[OUT] end ok. -/
theorem overheadReportsTheOutDirection : Obligations.OverheadReportsTheOutDirection := by
  unfold Obligations.OverheadReportsTheOutDirection
  exact fun s p hs => ⟨fun hks => endsOk_of_body (exec_overhead s) hs (overheadBody_of_not_keyed hks),
    fun tagLen hks htag => endsOk_of_body (exec_overhead s) hs (overheadBody_of_keyed hks htag)⟩

/-! ## The round trip (R137) -/

/-- From the payload that ENCRYPT left, DECRYPT builds the buffer that protect returned, and takes the payload from the
buffer that ENCRYPT built. -/
theorem exec_decrypt_of_protected {s : State} {p : Port} {tagLen : BitVec 8} {session session' : Session}
    {header pay out : List Byte} (hs : s.Ready p) (hks : s.keyIn.ks = true) (htag : s.keyIn.tagLen = some tagLen)
    (hsess : s.keyIn.sess = some session) (hheader : header.length = s.params.ohbSize)
    (hlength : out.length = (s.params.versionByte :: header ++ pay).length + tagLen.toNat)
    (hhead : out.head? = some s.params.versionByte) (hib : p.ib = out.tail)
    (hdraw : s.draw.unprotect = .done session' (s.params.versionByte :: header ++ pay)) :
    exec .decrypt s = .next (((s.ask (.unprotect session out)).setKey .inn
      { s.keyIn with sess := some session' }).setPort { p with ib := pay, status := some 0#8 }) := by
  obtain ⟨rest, rfl⟩ := List.head?_eq_some_iff.mp hhead
  rw [List.tail_cons] at hib
  simp only [List.cons_append, List.length_cons, List.length_append] at hlength
  obtain ⟨call, hb, hcall⟩ := decryptBody_of_values (P := s.params) (p := p) hks htag hsess (by rw [hib]; omega)
  have hanswer := hcall.answered hdraw
    (by simp only [List.cons_append, List.length_cons, List.length_append, hib]; omega)
  rw [Nat.add_comm, List.cons_append, List.drop_succ_cons, ← hheader, List.drop_left] at hanswer
  rw [← hib, ← hcall.question]
  exact exec_of_engineAnswer (exec_decrypt s) hs hb hanswer

/-- What ENCRYPT that ended ok asked, and what it left: the header is the OHB of R126, and the answer without its first
byte is the payload (R133). -/
theorem exec_encrypt_ok {s t : State} {p q : Port} {pay out : List Byte} {session' : Session} (hs : s.Ready p)
    (hpay : p.pkt.pay = some pay) (hdraw : s.draw.protect = some (session', out)) (hexec : exec .encrypt s = .next t)
    (ht : ¬ t.halted) (hq : t.port? = some q) (hok : q.status = some 0#8) :
    ∃ tagLen session header, s.keyOut.tagLen = some tagLen ∧ header.length = 11 ∧
      out.length = (s.params.versionByte :: header ++ pay).length + tagLen.toNat ∧
      q = (p.setPAY out.tail).setStatus .ok ∧
      t = ((s.ask (.protect session (s.params.versionByte :: header ++ pay))).setKey .out
        { s.keyOut with sess := some session' }).setPort q := by
  obtain ⟨call, k, p', hb, hf, rfl⟩ := runEngine_answered (body := encryptBody) hs.2
    (encryptBody_stops (by simp) (by simp) (by simp) (by simp) (by simp)) hexec ht hq hok
  obtain ⟨tagLen, session, m, pt, seq, ts, ssrc, pay', htag, -, hpay', hcall⟩ := encryptBody_eq_ok hb
  obtain rfl : pay = pay' := Option.some.inj (hpay.symm.trans hpay')
  obtain ⟨hlength, rfl, rfl⟩ := hcall.of_finish_eq_ok hdraw hf
  have hport : ((s.ask call.question).setKey .out { s.keyOut with sess := some session' }).port? = some p := hs.2
  obtain rfl := Option.some.inj ((State.setPort_port? _ hport).symm.trans hq)
  rw [hcall.question]
  exact ⟨tagLen, session, ohb m pt seq ts ssrc, htag, ohb_length .., hlength, rfl, rfl⟩

/-- Settles O41: ENCRYPT that ended ok leaves what protect returned without its first byte, the version byte, and
DECRYPT puts that byte back. -/
theorem wrapperRoundTrip : Obligations.WrapperRoundTrip := by
  unfold Obligations.WrapperRoundTrip
  intro s t u p q pay loaded out buf sOut sOut' sIn sIn' hohb hs hpay hsess hks htagIn hsessIn hexec hq hok ht hasked
    hdraw hhead hloaded hu
  obtain ⟨tagLen, session, header, htag, hheader, hlength, rfl, rfl⟩ := exec_encrypt_ok hs hpay hdraw hexec ht hq hok
  obtain rfl : out.tail = loaded := Option.some.inj hloaded
  obtain rfl : s.params.versionByte :: header ++ pay = buf := by
    have hquestion := List.append_cancel_left hasked
    simp only [List.cons.injEq, EngineQuestion.protect.injEq] at hquestion
    exact hquestion.1.2
  subst hu
  exact ⟨_, exec_decrypt_of_protected ⟨ht, State.setPort_port? _ hq⟩ hks (htagIn.trans htag) hsessIn
    (hheader.trans hohb.symm) hlength hhead rfl rfl, rfl, rfl⟩

end Sys2Proof.Machine

/-! A halted block (spec/60_exceptions.md R142), and what no step of the block lets the host see: the inside of a session
and CMD (R149, R40, R29). Two runs of one command from states that look alike are followed side by side: `Alike` relates
two runs of a pseudocode, one lemma per body says that it reads neither CMD nor the inside of a session, and
`step_shows` puts the commands and the host's actions together. -/

namespace Sys2Proof.Machine

/-! ## A halted block (R142) -/

/-- The only step of a halted block is the first reset to come. -/
theorem step_of_halted {s : State} (h : s.halted) : step s = s.leaveHalt := step_of_done (State.nextRequest_halted h)

theorem exec_of_halted {s : State} (h : s.halted) (i : Instr) : exec i s = .fault .halted := by
  rcases exec_cases i s with ⟨body, hexec⟩ | ⟨d, body, hexec⟩
  · exact hexec.trans (runPort_of_halted h)
  · exact hexec.trans (runEngine_of_halted h)

theorem State.leaveHalt_of_afterReset {s : State} {rest : List HostAction} (h : afterReset s.inbox = some rest) :
    s.leaveHalt = .next { s with inbox := rest }.resetBlock := by
  simp [State.leaveHalt, h]

/-- Reset takes FLT to 0 (R156). -/
theorem State.resetBlock_running (s : State) : ¬ s.resetBlock.halted := by
  simp [State.halted, State.flt, State.resetBlock, State.resetOf]

/-- Settles O6: the step of a halted block is `State.leaveHalt`. -/
theorem haltedBlockDoesNothingUntilReset : Obligations.HaltedBlockDoesNothingUntilReset := by
  unfold Obligations.HaltedBlockDoesNothingUntilReset
  intro s hs
  refine ⟨exec_of_halted hs, fun hreset => ?_, fun before rest hbefore hi => ?_, fun t hstep => ?_,
    fun hfinal => hfinal.1 hs⟩
  · rw [step_of_halted hs, State.leaveHalt, afterReset_eq_none.mpr hreset]
  · rw [step_of_halted hs, step_of_halted (s := { s with inbox := .reset :: rest }) hs,
      State.leaveHalt_of_afterReset (afterReset_eq_some.mpr ⟨before, hbefore, hi⟩)]
    rfl
  · rw [step_of_halted hs] at hstep
    obtain ⟨rest, -, rfl⟩ := State.leaveHalt_next hstep
    exact State.resetBlock_running _

/-! ## What the host cannot read of a port and of a direction -/

/-- The port with another word in CMD. -/
def Port.withCmd (p : Port) (w : CmdWord) : Port := { p with cmd := w }

/-- The key state of a direction with another session. -/
def KeyState.withSess (k : KeyState) (x : Option Session) : KeyState := { k with sess := x }

@[simp] theorem Port.withCmd_view (p : Port) (w : CmdWord) : (p.withCmd w).view = p.view := rfl

@[simp] theorem Port.withCmd_setV (p : Port) (w : CmdWord) (j : Fin 8) (x : Word) :
    (p.withCmd w).setV j x = (p.setV j x).withCmd w := rfl

/-- The host sees all of a port but CMD. -/
theorem Port.eq_withCmd_of_view {p q : Port} (h : p.view = q.view) : q = p.withCmd q.cmd := by
  cases p; cases q
  simp only [Port.view, PortView.mk.injEq] at h
  simp [Port.withCmd, h]

/-- The host sees all of a direction but SESS. -/
theorem KeyState.eq_withSess_of_view {k k' : KeyState} (h : k.view = k'.view) : k' = k.withSess k'.sess := by
  cases k; cases k'
  simp only [KeyState.view, KeyView.mk.injEq] at h
  simp [KeyState.withSess, h]

/-! ## Two runs of a pseudocode -/

/-- The two runs stop in the same way, or they answer values that `R` relates. -/
def Alike {α β : Type} (R : α → β → Prop) : Except Stop α → Except Stop β → Prop
  | .ok a, .ok b => R a b
  | .error e, .error e' => e = e'
  | _, _ => False

namespace Alike

variable {α β γ δ : Type} {R : α → β → Prop} {x : Except Stop α} {y : Except Stop β}

theorem pure {a : α} {b : β} (h : R a b) : Alike R (Pure.pure a) (Pure.pure b) := h

theorem stop (e : Stop) : Alike R (.error e) (.error e) := rfl

/-- Both runs begin with the same check or the same read. -/
theorem andThen {x : Except Stop γ} {f : γ → Except Stop α} {g : γ → Except Stop β} (h : ∀ c, Alike R (f c) (g c)) :
    Alike R (x >>= f) (x >>= g) := by
  cases x with
  | ok c => exact h c
  | error e => exact stop e

/-- Each run begins with a read of its own register, and the two registers hold values or both hold none. -/
theorem held {r : Option γ} {r' : Option δ} {f : γ → Except Stop α} {g : δ → Except Stop β}
    (hr : r.isSome = r'.isSome) (h : ∀ c d, Alike R (f c) (g d)) : Alike R (held r >>= f) (held r' >>= g) := by
  cases r with
  | none =>
    obtain rfl : r' = none := by simpa using hr
    exact stop _
  | some c =>
    obtain ⟨d, rfl⟩ := Option.isSome_iff_exists.mp hr.symm
    exact h c d

/-- Both runs branch on the same condition. -/
theorem ite {c : Prop} [Decidable c] {x' : Except Stop α} {y' : Except Stop β} (h : Alike R x y) (h' : Alike R x' y') :
    Alike R (if c then x else x') (if c then y else y') := by
  split
  · exact h
  · exact h'

theorem of_ok {a : α} (h : Alike R x y) (hx : x = .ok a) : ∃ b, y = .ok b ∧ R a b := by
  subst hx
  cases y with
  | ok b => exact ⟨b, rfl, h⟩
  | error e => exact h.elim

theorem of_error {e : Stop} (h : Alike R x y) (hx : x = .error e) : y = .error e := by
  subst hx
  cases y with
  | ok b => exact h.elim
  | error e' => exact congrArg _ h.symm

end Alike

/-! ## No pseudocode reads CMD, or inside a session -/

/-- Run on a port with another word in CMD, the pseudocode stops in the same way or answers the same port but for that
word. -/
abbrev IgnoresCmd (body : Params → Port → Except Stop Port) : Prop :=
  ∀ P p w, Alike (fun q q' => q' = q.withCmd w) (body P p) (body P (p.withCmd w))

namespace IgnoresCmd

theorem parseAst : IgnoresCmd parseAstBody := fun _ _ _ => .andThen fun _ => .andThen fun _ => .pure rfl

theorem parseAl : IgnoresCmd parseAlBody := fun _ _ _ => .andThen fun _ => .andThen fun _ => .pure rfl

theorem parseToff : IgnoresCmd parseToffBody := fun _ _ _ => .andThen fun _ => .andThen fun _ => .pure rfl

theorem parseTsn : IgnoresCmd parseTsnBody := fun _ _ _ => .andThen fun _ => .andThen fun _ => .pure rfl

theorem parseCvo : IgnoresCmd parseCvoBody := fun _ _ _ => .andThen fun _ => .andThen fun _ => .pure rfl

theorem parseCvoraw : IgnoresCmd parseCvorawBody := fun _ _ _ => .andThen fun _ => .andThen fun _ => .pure rfl

theorem parsePdl : IgnoresCmd parsePdlBody := fun _ _ _ =>
  .andThen fun _ => .andThen fun _ => .andThen fun _ => .pure rfl

theorem parseVct : IgnoresCmd parseVctBody := fun _ _ _ =>
  .andThen fun _ => .andThen fun _ => .andThen fun _ => .pure rfl

theorem parseVt : IgnoresCmd parseVtBody := fun _ _ _ =>
  .andThen fun _ => .andThen fun _ => .andThen fun _ => .andThen fun _ => .andThen fun _ => .andThen fun _ =>
    .andThen fun _ => .pure rfl

theorem parseStreamId : IgnoresCmd parseStreamIdBody := fun _ _ _ =>
  .andThen fun _ => .andThen fun _ => .andThen fun _ => .andThen fun _ => .pure rfl

theorem parseFm : IgnoresCmd parseFmBody := fun _ _ _ => by
  refine .andThen fun _ => .andThen fun _ => ?_
  exact .ite (.andThen fun _ => .andThen fun _ => .pure (by simp)) (.pure (by simp))

theorem writeAst : IgnoresCmd writeAstBody := fun _ _ _ =>
  .andThen fun _ => .andThen fun _ => .andThen fun _ => .andThen fun _ => .pure rfl

theorem writeAl : IgnoresCmd writeAlBody := fun _ _ _ =>
  .andThen fun _ => .andThen fun _ => .andThen fun _ => .andThen fun _ => .andThen fun _ => .pure rfl

theorem writeToff : IgnoresCmd writeToffBody := fun _ _ _ =>
  .andThen fun _ => .andThen fun _ => .andThen fun _ => .andThen fun _ => .pure rfl

theorem writeTsn : IgnoresCmd writeTsnBody := fun _ _ _ =>
  .andThen fun _ => .andThen fun _ => .andThen fun _ => .andThen fun _ => .pure rfl

theorem writeCvo : IgnoresCmd writeCvoBody := fun _ _ _ =>
  .andThen fun _ => .andThen fun _ => .andThen fun _ => .pure rfl

theorem writeCvoraw : IgnoresCmd writeCvorawBody := fun _ _ _ =>
  .andThen fun _ => .andThen fun _ => .andThen fun _ => .pure rfl

theorem writePdl : IgnoresCmd writePdlBody := fun _ _ _ =>
  .andThen fun _ => .andThen fun _ => .andThen fun _ => .andThen fun _ => .andThen fun _ => .pure rfl

theorem writeVct : IgnoresCmd writeVctBody := fun _ _ _ =>
  .andThen fun _ => .andThen fun _ => .andThen fun _ => .pure rfl

theorem writeVt : IgnoresCmd writeVtBody := fun _ _ _ =>
  .andThen fun _ => .andThen fun _ => .andThen fun _ => .andThen fun _ => .andThen fun _ => .andThen fun _ =>
    .andThen fun _ => .andThen fun _ => .andThen fun _ => .andThen fun _ => .andThen fun _ => .andThen fun _ =>
    .andThen fun _ => .andThen fun _ => .pure rfl

theorem writeStreamId : IgnoresCmd writeStreamIdBody := fun _ _ _ =>
  .andThen fun _ => .andThen fun _ => .andThen fun _ => .andThen fun _ => .andThen fun _ => .andThen fun _ =>
    .pure rfl

theorem writeFm : IgnoresCmd writeFmBody := fun _ _ _ =>
  .andThen fun _ => .andThen fun _ => .andThen fun _ => .andThen fun _ => .andThen fun _ => .andThen fun _ =>
    .andThen fun _ => .andThen fun _ => .andThen fun _ => .andThen fun _ => .andThen fun _ => .andThen fun _ =>
    .ite (.pure rfl) (.pure rfl)

theorem vsize (size : Nat) : IgnoresCmd (vsizeBody size) := fun _ _ _ => .pure rfl

theorem vsizeStreamId : IgnoresCmd vsizeStreamIdBody := fun _ _ _ => .andThen fun _ => .pure rfl

theorem vsizeFm : IgnoresCmd vsizeFmBody := fun _ _ _ =>
  .andThen fun _ => .andThen fun _ => .andThen fun _ => .andThen fun _ => .pure rfl

theorem vp9lid : IgnoresCmd vp9lidBody := fun _ _ _ =>
  .andThen fun _ => .andThen fun _ => .andThen fun _ => .andThen fun _ => .pure rfl

theorem overhead (k : KeyState) : IgnoresCmd (overheadBody k) := fun _ _ _ =>
  .ite (.andThen fun _ => .pure rfl) (.pure rfl)

end IgnoresCmd

/-- OVERHEAD does not read SESS (R135). -/
theorem overheadBody_withSess (k : KeyState) (x : Option Session) : overheadBody (k.withSess x) = overheadBody k := rfl

/-- On one answer of the engine the two calls stop in the same way, or write the same key state and the same port but for
CMD. -/
abbrev EngineCall.Alike (w : CmdWord) (call call' : EngineCall) : Prop :=
  ∀ draw, Machine.Alike (fun r r' => r' = (r.1, r.2.withCmd w)) (call.finish draw) (call'.finish draw)

/-- Run with another word in CMD and another session, the pseudocode comes to the same stop or to a call that differs at
most in its question. -/
abbrev IgnoresHidden (body : Params → KeyState → Port → Except Stop EngineCall) : Prop :=
  ∀ P k p w x, k.sess.isSome = x.isSome →
    Alike (EngineCall.Alike w) (body P k p) (body P (k.withSess x) (p.withCmd w))

namespace IgnoresHidden

theorem setkey (d : Direction) : IgnoresHidden (setkeyBody d) := fun P k p w x _ => by
  refine .andThen fun _ => .andThen fun v0 => ?_
  cases P.suiteOf v0 with
  | none => exact .stop _
  | some row =>
    refine .andThen fun _ => .pure fun draw => ?_
    cases hdraw : draw.create with
    | none => simp only [hdraw]; exact .stop _
    | some session => simp only [hdraw]; exact .pure rfl

theorem encrypt : IgnoresHidden encryptBody := fun P k p w x hx => by
  refine .andThen fun _ => .andThen fun _ => .andThen fun _ => .andThen fun _ => .andThen fun _ => .andThen fun _ =>
    .andThen fun _ => .andThen fun _ => .andThen fun _ => .andThen fun _ => .held hx fun _ _ => .pure fun draw => ?_
  cases hdraw : draw.protect with
  | none => simp only [hdraw]; exact .stop _
  | some answer => simp only [hdraw]; exact .andThen fun _ => .pure rfl

theorem decrypt : IgnoresHidden decryptBody := fun P k p w x hx => by
  refine .andThen fun _ => .andThen fun _ => .andThen fun _ => .held hx fun _ _ => .pure fun draw => ?_
  cases hdraw : draw.unprotect with
  | authFail => simp only [hdraw]; exact .stop _
  | replayFail => simp only [hdraw]; exact .stop _
  | done session out => simp only [hdraw]; exact .andThen fun _ => .pure rfl

end IgnoresHidden

/-! ## States that look alike -/

/-- When the first answer is a next state, so is the second, and the two next states look alike. -/
def Answer.Shows (a b : Answer) : Prop := ∀ s', a = .next s' → ∃ t', b = .next t' ∧ s'.LooksLike t'

theorem State.hostView_eq_iff {s t : State} : s.hostView = t.hostView ↔
    s.ports.map Port.view = t.ports.map Port.view ∧ s.keyOut.view = t.keyOut.view ∧ s.keyIn.view = t.keyIn.view ∧
      s.fault = t.fault ∧ s.fcmd = t.fcmd := by
  simp [State.hostView]

namespace State.LooksLike

variable {s t : State} {p : Port} {w : CmdWord}

theorem shows (h : s.LooksLike t) : Answer.Shows (.next s) (.next t) := by
  rintro s' ⟨⟩; exact ⟨t, rfl, h⟩

theorem views (h : s.LooksLike t) : s.ports.map Port.view = t.ports.map Port.view := congrArg HostView.ports h.view

theorem keyOut (h : s.LooksLike t) : s.keyOut.view = t.keyOut.view := congrArg HostView.keyOut h.view

theorem keyIn (h : s.LooksLike t) : s.keyIn.view = t.keyIn.view := congrArg HostView.keyIn h.view

theorem fault (h : s.LooksLike t) : s.fault = t.fault := congrArg HostView.fault h.view

theorem fcmd (h : s.LooksLike t) : s.fcmd = t.fcmd := congrArg HostView.fcmd h.view

theorem halted_iff (h : s.LooksLike t) : t.halted ↔ s.halted := by
  rw [State.halted, State.halted, State.flt, State.flt, h.fault]

theorem length (h : s.LooksLike t) : s.ports.length = t.ports.length := by
  simpa using congrArg List.length h.views

theorem getElem? (h : s.LooksLike t) {n : Nat} (hp : s.ports[n]? = some p) : ∃ w, t.ports[n]? = some (p.withCmd w) := by
  have hview : (s.ports.map Port.view)[n]? = (t.ports.map Port.view)[n]? := by rw [h.views]
  simp only [List.getElem?_map, hp, Option.map_some] at hview
  obtain ⟨q, hq, hpq⟩ := Option.map_eq_some_iff.mp hview.symm
  exact ⟨q.cmd, hq.trans (congrArg some (Port.eq_withCmd_of_view hpq.symm))⟩

theorem port? (h : s.LooksLike t) (hp : s.port? = some p) : ∃ w, t.port? = some (p.withCmd w) := by
  rw [State.port?, ← h.cur]; exact h.getElem? hp

theorem key (h : s.LooksLike t) (d : Direction) :
    ∃ x, t.key d = (s.key d).withSess x ∧ (s.key d).sess.isSome = x.isSome := by
  cases d with
  | out => exact ⟨_, KeyState.eq_withSess_of_view h.keyOut, h.sessOut⟩
  | inn => exact ⟨_, KeyState.eq_withSess_of_view h.keyIn, h.sessIn⟩

/-! ### What keeps the likeness -/

theorem withPorts (h : s.LooksLike t) {ps qs : List Port} (hviews : ps.map Port.view = qs.map Port.view) :
    ({ s with ports := ps } : State).LooksLike { t with ports := qs } :=
  { h with view := State.hostView_eq_iff.mpr ⟨hviews, h.keyOut, h.keyIn, h.fault, h.fcmd⟩ }

theorem setPorts (h : s.LooksLike t) (n : Nat) (p : Port) (w : CmdWord) :
    ({ s with ports := s.ports.set n p } : State).LooksLike { t with ports := t.ports.set n (p.withCmd w) } :=
  h.withPorts (by simp [List.map_set, h.views])

theorem setPort (h : s.LooksLike t) (p : Port) (w : CmdWord) : (s.setPort p).LooksLike (t.setPort (p.withCmd w)) :=
  h.withPorts (by simp [List.map_set, h.views, h.cur])

/-- The questions to the engine, which hold the session, are not shown (R149). -/
theorem ask (h : s.LooksLike t) (q q' : EngineQuestion) : (s.ask q).LooksLike (t.ask q') := { h with }

theorem setKey (h : s.LooksLike t) (d : Direction) (k : KeyState) : (s.setKey d k).LooksLike (t.setKey d k) := by
  cases d with
  | out =>
    exact { h with sessOut := rfl, view := State.hostView_eq_iff.mpr ⟨h.views, rfl, h.keyIn, h.fault, h.fcmd⟩ }
  | inn =>
    exact { h with sessIn := rfl, view := State.hostView_eq_iff.mpr ⟨h.views, h.keyOut, rfl, h.fault, h.fcmd⟩ }

theorem raiseFault (h : s.LooksLike t) (k : FaultKind) (w : CmdWord) :
    (s.raiseFault k w).LooksLike (t.raiseFault k w) := by
  by_cases hs : s.halted
  · rw [State.raiseFault_of_halted hs, State.raiseFault_of_halted (h.halted_iff.mpr hs)]
    exact h
  · rw [State.raiseFault_of_running hs, State.raiseFault_of_running (h.halted_iff.not.mpr hs)]
    exact { h with view := State.hostView_eq_iff.mpr ⟨h.views, h.keyOut, h.keyIn, rfl, rfl⟩ }

theorem withInbox (h : s.LooksLike t) (rest : List HostAction) :
    ({ s with inbox := rest } : State).LooksLike { t with inbox := rest } :=
  { h with inbox := rfl }

/-- After a reset the block is the same but for the questions asked (R155). -/
theorem resetBlock (h : s.LooksLike t) : s.resetBlock.LooksLike t.resetBlock where
  view := by simp [State.resetBlock, State.hostView, h.params]
  sessOut := rfl
  sessIn := rfl
  params := h.params
  cur := rfl
  draw := h.draw
  inbox := h.inbox

/-- A CMD write changes nothing that the host sees of a port (R29). -/
theorem accept (h : s.LooksLike t) (n : Nat) (w : CmdWord) (draw : EngineDraw) :
    (s.accept n w draw).LooksLike (t.accept n w draw) := by
  have hviews (ps : List Port) : (ps.modify n fun p => { p with cmd := w }).map Port.view = ps.map Port.view := by
    refine List.ext_getElem (by simp) fun m _ _ => ?_
    simp only [List.getElem_map, List.getElem_modify]
    split <;> rfl
  exact { h.withPorts (((hviews _).trans h.views).trans (hviews _).symm) with cur := rfl, draw := rfl }

end State.LooksLike

/-! ## What a command shows -/

section
variable {i : Instr} {s t : State} {p : Port} {w : CmdWord}

theorem State.LooksLike.stopped (h : s.LooksLike t) (i : Instr) (p : Port) (w : CmdWord) (stop : Stop) :
    Answer.Shows (s.stopped i p stop) (t.stopped i (p.withCmd w) stop) := by
  cases stop with
  | fail c => exact (h.setPort (p.setStatus c) w).shows
  | raise k => exact (h.raiseFault k (encode i)).shows
  | undefinedAccess => rintro _ ⟨⟩

theorem runPort_shows {body : Params → Port → Except Stop Port} (h : s.LooksLike t) (hbody : IgnoresCmd body) :
    Answer.Shows (runPort i body s) (runPort i body t) := by
  intro s' hs
  obtain ⟨hrs, p, hps, -⟩ := runPort_next hs
  have hrt : ¬ t.halted := h.halted_iff.not.mpr hrs
  obtain ⟨w, hpt⟩ := h.port? hps
  have hruns := hbody t.params p w
  cases hb : body s.params p with
  | ok q =>
    obtain ⟨_, hb', rfl⟩ := hruns.of_ok (h.params ▸ hb)
    rw [runPort_of_ok hrs hps hb] at hs
    rw [runPort_of_ok hrt hpt hb']
    exact (h.setPort (q.setStatus .ok) w).shows s' hs
  | error stop =>
    rw [runPort_of_error hrs hps hb] at hs
    rw [runPort_of_error hrt hpt (hruns.of_error (h.params ▸ hb))]
    exact h.stopped i p w stop s' hs

theorem runEngine_shows {d : Direction} {body : Params → KeyState → Port → Except Stop EngineCall}
    (h : s.LooksLike t) (hbody : IgnoresHidden body) : Answer.Shows (runEngine i d body s) (runEngine i d body t) := by
  intro s' hs
  obtain ⟨hrs, p, hps, -⟩ := runEngine_next hs
  have hrt : ¬ t.halted := h.halted_iff.not.mpr hrs
  obtain ⟨w, hpt⟩ := h.port? hps
  obtain ⟨x, hkey, hx⟩ := h.key d
  have hruns := hbody t.params (s.key d) p w x hx
  rw [← hkey] at hruns
  cases hb : body s.params (s.key d) p with
  | error stop =>
    rw [runEngine_of_error hrs hps hb] at hs
    rw [runEngine_of_error hrt hpt (hruns.of_error (h.params ▸ hb))]
    exact h.stopped i p w stop s' hs
  | ok call =>
    obtain ⟨call', hb', hcalls⟩ := hruns.of_ok (h.params ▸ hb)
    have hask := h.ask call.question call'.question
    have hfinish := hcalls t.draw
    cases hf : call.finish s.draw with
    | ok r =>
      obtain ⟨_, hf', rfl⟩ := hfinish.of_ok (h.draw ▸ hf)
      rw [runEngine_of_answer hrs hps hb hf] at hs
      rw [runEngine_of_answer hrt hpt hb' hf']
      exact ((hask.setKey d r.1).setPort (r.2.setStatus .ok) w).shows s' hs
    | error stop =>
      rw [runEngine_of_refusal hrs hps hb hf] at hs
      rw [runEngine_of_refusal hrt hpt hb' (hfinish.of_error (h.draw ▸ hf))]
      exact hask.stopped i p w stop s' hs

/-- No command shows a session or CMD. -/
theorem exec_shows (h : s.LooksLike t) (i : Instr) : Answer.Shows (exec i s) (exec i t) := by
  have hvsize (size : Nat) (hexec : ∀ u, exec i u = runPort i (vsizeBody size) u) :
      Answer.Shows (exec i s) (exec i t) := by
    rw [hexec, hexec]
    exact runPort_shows h (.vsize size)
  cases i with
  | parseAst => exact runPort_shows h .parseAst
  | parseAl => exact runPort_shows h .parseAl
  | parseToff => exact runPort_shows h .parseToff
  | parseTsn => exact runPort_shows h .parseTsn
  | parseCvo => exact runPort_shows h .parseCvo
  | parseCvoraw => exact runPort_shows h .parseCvoraw
  | parsePdl => exact runPort_shows h .parsePdl
  | parseVct => exact runPort_shows h .parseVct
  | parseVt => exact runPort_shows h .parseVt
  | parseRsid | parseRrsid => exact runPort_shows h .parseStreamId
  | parseFm => exact runPort_shows h .parseFm
  | writeAst => exact runPort_shows h .writeAst
  | writeAl => exact runPort_shows h .writeAl
  | writeToff => exact runPort_shows h .writeToff
  | writeTsn => exact runPort_shows h .writeTsn
  | writeCvo => exact runPort_shows h .writeCvo
  | writeCvoraw => exact runPort_shows h .writeCvoraw
  | writePdl => exact runPort_shows h .writePdl
  | writeVct => exact runPort_shows h .writeVct
  | writeVt => exact runPort_shows h .writeVt
  | writeRsid | writeRrsid => exact runPort_shows h .writeStreamId
  | writeFm => exact runPort_shows h .writeFm
  | vsizeAst | vsizeAl | vsizeToff | vsizeTsn | vsizeCvo | vsizeCvoraw | vsizePdl | vsizeVct | vsizeVt =>
    exact hvsize _ fun _ => rfl
  | vsizeRsid | vsizeRrsid => exact runPort_shows h .vsizeStreamId
  | vsizeFm => exact runPort_shows h .vsizeFm
  | vp9lid => exact runPort_shows h .vp9lid
  | setkeyOut => exact runEngine_shows h (.setkey .out)
  | setkeyIn => exact runEngine_shows h (.setkey .inn)
  | encrypt => exact runEngine_shows h .encrypt
  | decrypt => exact runEngine_shows h .decrypt
  | overhead =>
    obtain ⟨x, hkey, -⟩ := h.key .out
    have hbody : overheadBody t.keyOut = overheadBody s.keyOut :=
      (congrArg overheadBody hkey).trans (overheadBody_withSess s.keyOut x)
    rw [exec_overhead, exec_overhead, hbody]
    exact runPort_shows h (.overhead s.keyOut)

end

/-! ## What a step shows -/

/-- A write of a register or buffer other than CMD shows what it wrote, and no more. -/
theorem State.LooksLike.hostWrite {s t : State} (h : s.LooksLike t) (n : Nat) {f : Port → Port}
    (hf : ∀ p w, f (p.withCmd w) = (f p).withCmd w) : Answer.Shows (s.hostWrite n f) (t.hostWrite n f) := by
  intro s' hs
  obtain ⟨p, hp, rfl⟩ := State.hostWrite_next hs
  obtain ⟨w, hq⟩ := h.getElem? hp
  refine ⟨_, ?_, h.setPorts n (f p) w⟩
  simp [State.hostWrite, hq, hf]

/-- A halted block shows no more than that it waits for a reset (R142). -/
theorem State.LooksLike.leaveHalt {s t : State} (h : s.LooksLike t) : Answer.Shows s.leaveHalt t.leaveHalt := by
  intro s' hs
  obtain ⟨rest, hrest, rfl⟩ := State.leaveHalt_next hs
  exact ⟨_, State.leaveHalt_of_afterReset (h.inbox ▸ hrest), (h.withInbox rest).resetBlock⟩

theorem step_shows {s t : State} (h : s.LooksLike t) : Answer.Shows (step s) (step t) := by
  by_cases hrs : s.halted
  · rw [step_of_halted hrs, step_of_halted (h.halted_iff.mpr hrs)]
    exact h.leaveHalt
  have hrt : ¬ t.halted := h.halted_iff.not.mpr hrs
  cases hi : s.inbox with
  | nil =>
    rw [step_of_done (State.nextRequest_nil hrs hi), step_of_done (State.nextRequest_nil hrt (h.inbox ▸ hi))]
    exact h.shows
  | cons a rest =>
    have hit : t.inbox = a :: rest := h.inbox ▸ hi
    have hrest := h.withInbox rest
    have hreqs := State.nextRequest_cons hrs hi
    have hreqt := State.nextRequest_cons hrt hit
    cases a with
    | writeCMD n w draw =>
      by_cases hn : n < s.ports.length
      · have hreqs := State.nextRequest_writeCMD hrs hi hn
        have hreqt := State.nextRequest_writeCMD hrt hit (h.length ▸ hn)
        have haccept := hrest.accept n w draw
        cases hw : decode w with
        | command i =>
          rw [step_of_command hreqs hw, step_of_command hreqt hw]
          exact exec_shows haccept i
        | rejected r =>
          rw [step_of_rejected hreqs hw, step_of_rejected hreqt hw]
          exact (haccept.raiseFault .illegalCommand w).shows
      · rw [step_of_done (by simpa [State.perform, hn] using hreqs)]
        rintro _ ⟨⟩
    | reset =>
      rw [step_of_done hreqs, step_of_done hreqt]
      exact hrest.resetBlock.shows
    | _ n =>
      rw [step_of_done hreqs, step_of_done hreqt]
      exact hrest.hostWrite n fun _ _ => rfl

/-- Settles O57: step by step, through the commands and the host's actions. -/
theorem hiddenStateNeverShows : Obligations.HiddenStateNeverShows := by
  unfold Obligations.HiddenStateNeverShows
  intro s t s' h hstep
  exact step_shows h s' hstep

end Sys2Proof.Machine

/-! Reset (spec/70_reset_and_hazards.md R155, R156): the step that takes it, of a running block and of a halted one alike, and
the invariant at the state it leaves. -/

namespace Sys2Proof.Machine

/-! ## The step that resets the block (R155) -/

/-- A running block performs the reset as its next host action. A halted block takes the first reset to come (R142),
which is this one. -/
theorem step_of_reset {s : State} {rest : List HostAction} (hi : s.inbox = .reset :: rest) :
    step s = .next { s with inbox := rest }.resetBlock := by
  by_cases hs : s.halted
  · have hafter : afterReset s.inbox = some rest := afterReset_eq_some.mpr ⟨[], List.not_mem_nil, hi⟩
    rw [step_of_halted hs, State.leaveHalt_of_afterReset hafter]
  · exact step_of_done (State.nextRequest_cons hs hi)

/-- Settles O9: the state that `step_of_reset` gives, field by field. -/
theorem resetDestroysSessionsAndClears : Obligations.ResetDestroysSessionsAndClears := by
  unfold Obligations.ResetDestroysSessionsAndClears
  intro s rest hi
  rw [step_of_reset hi]
  rfl

/-! ## The state after reset (R156) -/

/-- Reset once more changes nothing: no direction is keyed, so no session is left to destroy. -/
theorem State.resetBlock_reset : State.reset.resetBlock = State.reset := rfl

/-- Settles O54: reset leads to a valid state from any state of a block with a port, and the block of R12's values has
one. -/
theorem resetIsValid : Obligations.ResetIsValid := by
  unfold Obligations.ResetIsValid
  have hport : 1 ≤ State.reset.params.nports := by decide
  rw [← State.resetBlock_reset]
  exact .resetBlock hport

end Sys2Proof.Machine
